-- ==== Sys2Proof/Word.lean ====
section
/-! DEFINITION. The two value widths of the core (R11): bytes and 16-bit words.
Every helper over them that a test could show wrong stands in Decode.lean or under Machine/. -/

namespace Sys2Proof

/-- An 8-bit value: a memory cell, a byte register, an instruction byte (R40, R12). -/
abbrev Byte := BitVec 8

/-- A 16-bit value: a word register, IP, ENTRY, an address held in a register (R10, R16, R24). -/
abbrev Word := BitVec 16

end Sys2Proof
end

