-- ==== Sys2Proof/Config.lean ====
section
/-! DEFINITION. The two OPEN parameters of the core (00_scope.md R3; 92_eei_decisions.md D2, D3).
They are carried by `State.config`, so that every statement holds for every value of them
(assumption 2). The spec leaves no free value open, so no opaque constant stands here. -/

namespace Sys2Proof

/-- The parameters of one machine (R3). -/
structure Config where
  /-- `MEM_SIZE`: the number of 8-bit memory cells, addresses `0 .. memSize - 1`; any natural
  number from 1 up is legal, the default is 65536 (R3, R40, D3). -/
  memSize : Nat
  /-- `CODE_STARTS`: when present, the set of addresses at which an instruction may start; a list
  with no repeats. Absent by default (R3, R93, D2). -/
  codeStarts : Option (List Word)
  deriving DecidableEq, Repr

/-- The default of both parameters (R3). -/
def Config.standard : Config := { memSize := 65536, codeStarts := none }

/-- The legal parameter values: at least one cell (R3), and a start set listed without repeats (assumption 3). -/
abbrev Config.wf (c : Config) : Prop :=
  1 ≤ c.memSize ∧ (c.codeStarts.getD []).Nodup

end Sys2Proof
end

