-- ==== Sys2Proof/Syntax.lean ====
section
/-! DEFINITION. The syntax of the core's instructions: register names, the numbering-free names of
the instruction groups (R66, R70 to R72), and `Instr` with one constructor per row of
spec/opcode_table.json (117 rows, R86). Register numbers and opcode bytes stand in Decode.lean. -/

namespace Sys2Proof

/-- The eight word registers (R10). -/
inductive Reg16 where
  | ax | cx | dx | bx | sp | bp | si | di
  deriving DecidableEq, Repr

/-- The eight byte registers, halves of AX, CX, DX and BX (R12). -/
inductive Reg8 where
  | al | cl | dl | bl | ah | ch | dh | bh
  deriving DecidableEq, Repr

/-- The nine two-operand operations of group G2 (R66). -/
inductive TwoOp where
  | mov | add | adc | sub | sbb | and | or | xor | cmp
  deriving DecidableEq, Repr

/-- The six operations of the unary group (R70). -/
inductive UnaryOp where
  | inc | dec | not | neg | mul | div
  deriving DecidableEq, Repr

/-- The two operations of the shift group (R71). -/
inductive ShiftOp where
  | shl | shr
  deriving DecidableEq, Repr

/-- Where a shift takes its count from (R71, R155): the constant 1, the register CL, or imm8. -/
inductive ShiftCount where
  | one | cl | imm8 (n : Byte)
  deriving DecidableEq, Repr

/-- The sixteen jumps of format FJ (R72): fourteen conditional ones, JMP and LOOP. -/
inductive JumpOp where
  | jo | jno | jb | jnb | jz | jnz | jbe | ja | js | jns | jl | jge | jle | jg | jmp | loop
  deriving DecidableEq, Repr

/-- The four operand shapes a byte-wide two-operand instruction of group G2 can have (R67). -/
inductive Form8 where
  | regReg (d r : Reg8)
  | regMem (d : Reg8) (b : Reg16)
  | memReg (b : Reg16) (r : Reg8)
  | regImm (d : Reg8) (imm : Byte)
  deriving DecidableEq, Repr

/-- The four operand shapes a word-wide two-operand instruction can have (R67, R68). -/
inductive Form16 where
  | regReg (d r : Reg16)
  | regMem (d b : Reg16)
  | memReg (b r : Reg16)
  | regImm (d : Reg16) (imm : Word)
  deriving DecidableEq, Repr

/-- The instructions: one constructor per row of spec/opcode_table.json. In a constructor's name
the mnemonic comes first and its operand shape after it: `R8` / `R16` a register, `Base` a memory
operand `[base]`, `Imm8` / `Imm16` an immediate, `Addr` a direct memory operand `[addr16]`, `One` and
`Cl` the count of a shift. Fields: `d` destination register, `r` register, `b` base register, `imm`
immediate, `a` direct address, `n` shift count, `rel` jump displacement. -/
inductive Instr where
  /-- `MOV r8,r8` = `00010000 11rrrbbb` (R67); meaning R110. -/
  | movR8R8 (d r : Reg8)
  /-- `MOV r16,r16` = `00010001 11rrrbbb` (R67); meaning R110. -/
  | movR16R16 (d r : Reg16)
  /-- `MOV r8,[base]` = `00010000 00rrrbbb` (R67); meaning R110. -/
  | movR8Base (d : Reg8) (b : Reg16)
  /-- `MOV r16,[base]` = `00010001 00rrrbbb` (R67); meaning R110. -/
  | movR16Base (d b : Reg16)
  /-- `MOV [base],r8` = `00010000 01rrrbbb` (R67); meaning R110. -/
  | movBaseR8 (b : Reg16) (r : Reg8)
  /-- `MOV [base],r16` = `00010001 01rrrbbb` (R67); meaning R110. -/
  | movBaseR16 (b r : Reg16)
  /-- `MOV r8,imm8` = `00010000 10rrr000 iiiiiiii` (R67); meaning R110. -/
  | movR8Imm8 (d : Reg8) (imm : Byte)
  /-- `MOV r16,imm16` = `01000rrr iiiiiiii iiiiiiii` (R68); meaning R110. -/
  | movR16Imm16 (d : Reg16) (imm : Word)
  /-- `ADD r8,r8` = `00010010 11rrrbbb` (R67); meaning R123. -/
  | addR8R8 (d r : Reg8)
  /-- `ADD r16,r16` = `00010011 11rrrbbb` (R67); meaning R123. -/
  | addR16R16 (d r : Reg16)
  /-- `ADD r8,[base]` = `00010010 00rrrbbb` (R67); meaning R123. -/
  | addR8Base (d : Reg8) (b : Reg16)
  /-- `ADD r16,[base]` = `00010011 00rrrbbb` (R67); meaning R123. -/
  | addR16Base (d b : Reg16)
  /-- `ADD [base],r8` = `00010010 01rrrbbb` (R67); meaning R123. -/
  | addBaseR8 (b : Reg16) (r : Reg8)
  /-- `ADD [base],r16` = `00010011 01rrrbbb` (R67); meaning R123. -/
  | addBaseR16 (b r : Reg16)
  /-- `ADD r8,imm8` = `00010010 10rrr000 iiiiiiii` (R67); meaning R123. -/
  | addR8Imm8 (d : Reg8) (imm : Byte)
  /-- `ADD r16,imm16` = `01001rrr iiiiiiii iiiiiiii` (R68); meaning R123. -/
  | addR16Imm16 (d : Reg16) (imm : Word)
  /-- `ADC r8,r8` = `00010100 11rrrbbb` (R67); meaning R124. -/
  | adcR8R8 (d r : Reg8)
  /-- `ADC r16,r16` = `00010101 11rrrbbb` (R67); meaning R124. -/
  | adcR16R16 (d r : Reg16)
  /-- `ADC r8,[base]` = `00010100 00rrrbbb` (R67); meaning R124. -/
  | adcR8Base (d : Reg8) (b : Reg16)
  /-- `ADC r16,[base]` = `00010101 00rrrbbb` (R67); meaning R124. -/
  | adcR16Base (d b : Reg16)
  /-- `ADC [base],r8` = `00010100 01rrrbbb` (R67); meaning R124. -/
  | adcBaseR8 (b : Reg16) (r : Reg8)
  /-- `ADC [base],r16` = `00010101 01rrrbbb` (R67); meaning R124. -/
  | adcBaseR16 (b r : Reg16)
  /-- `ADC r8,imm8` = `00010100 10rrr000 iiiiiiii` (R67); meaning R124. -/
  | adcR8Imm8 (d : Reg8) (imm : Byte)
  /-- `ADC r16,imm16` = `01010rrr iiiiiiii iiiiiiii` (R68); meaning R124. -/
  | adcR16Imm16 (d : Reg16) (imm : Word)
  /-- `SUB r8,r8` = `00010110 11rrrbbb` (R67); meaning R125. -/
  | subR8R8 (d r : Reg8)
  /-- `SUB r16,r16` = `00010111 11rrrbbb` (R67); meaning R125. -/
  | subR16R16 (d r : Reg16)
  /-- `SUB r8,[base]` = `00010110 00rrrbbb` (R67); meaning R125. -/
  | subR8Base (d : Reg8) (b : Reg16)
  /-- `SUB r16,[base]` = `00010111 00rrrbbb` (R67); meaning R125. -/
  | subR16Base (d b : Reg16)
  /-- `SUB [base],r8` = `00010110 01rrrbbb` (R67); meaning R125. -/
  | subBaseR8 (b : Reg16) (r : Reg8)
  /-- `SUB [base],r16` = `00010111 01rrrbbb` (R67); meaning R125. -/
  | subBaseR16 (b r : Reg16)
  /-- `SUB r8,imm8` = `00010110 10rrr000 iiiiiiii` (R67); meaning R125. -/
  | subR8Imm8 (d : Reg8) (imm : Byte)
  /-- `SUB r16,imm16` = `01011rrr iiiiiiii iiiiiiii` (R68); meaning R125. -/
  | subR16Imm16 (d : Reg16) (imm : Word)
  /-- `SBB r8,r8` = `00011000 11rrrbbb` (R67); meaning R126. -/
  | sbbR8R8 (d r : Reg8)
  /-- `SBB r16,r16` = `00011001 11rrrbbb` (R67); meaning R126. -/
  | sbbR16R16 (d r : Reg16)
  /-- `SBB r8,[base]` = `00011000 00rrrbbb` (R67); meaning R126. -/
  | sbbR8Base (d : Reg8) (b : Reg16)
  /-- `SBB r16,[base]` = `00011001 00rrrbbb` (R67); meaning R126. -/
  | sbbR16Base (d b : Reg16)
  /-- `SBB [base],r8` = `00011000 01rrrbbb` (R67); meaning R126. -/
  | sbbBaseR8 (b : Reg16) (r : Reg8)
  /-- `SBB [base],r16` = `00011001 01rrrbbb` (R67); meaning R126. -/
  | sbbBaseR16 (b r : Reg16)
  /-- `SBB r8,imm8` = `00011000 10rrr000 iiiiiiii` (R67); meaning R126. -/
  | sbbR8Imm8 (d : Reg8) (imm : Byte)
  /-- `SBB r16,imm16` = `01100rrr iiiiiiii iiiiiiii` (R68); meaning R126. -/
  | sbbR16Imm16 (d : Reg16) (imm : Word)
  /-- `AND r8,r8` = `00011010 11rrrbbb` (R67); meaning R151. -/
  | andR8R8 (d r : Reg8)
  /-- `AND r16,r16` = `00011011 11rrrbbb` (R67); meaning R151. -/
  | andR16R16 (d r : Reg16)
  /-- `AND r8,[base]` = `00011010 00rrrbbb` (R67); meaning R151. -/
  | andR8Base (d : Reg8) (b : Reg16)
  /-- `AND r16,[base]` = `00011011 00rrrbbb` (R67); meaning R151. -/
  | andR16Base (d b : Reg16)
  /-- `AND [base],r8` = `00011010 01rrrbbb` (R67); meaning R151. -/
  | andBaseR8 (b : Reg16) (r : Reg8)
  /-- `AND [base],r16` = `00011011 01rrrbbb` (R67); meaning R151. -/
  | andBaseR16 (b r : Reg16)
  /-- `AND r8,imm8` = `00011010 10rrr000 iiiiiiii` (R67); meaning R151. -/
  | andR8Imm8 (d : Reg8) (imm : Byte)
  /-- `AND r16,imm16` = `01101rrr iiiiiiii iiiiiiii` (R68); meaning R151. -/
  | andR16Imm16 (d : Reg16) (imm : Word)
  /-- `OR r8,r8` = `00011100 11rrrbbb` (R67); meaning R152. -/
  | orR8R8 (d r : Reg8)
  /-- `OR r16,r16` = `00011101 11rrrbbb` (R67); meaning R152. -/
  | orR16R16 (d r : Reg16)
  /-- `OR r8,[base]` = `00011100 00rrrbbb` (R67); meaning R152. -/
  | orR8Base (d : Reg8) (b : Reg16)
  /-- `OR r16,[base]` = `00011101 00rrrbbb` (R67); meaning R152. -/
  | orR16Base (d b : Reg16)
  /-- `OR [base],r8` = `00011100 01rrrbbb` (R67); meaning R152. -/
  | orBaseR8 (b : Reg16) (r : Reg8)
  /-- `OR [base],r16` = `00011101 01rrrbbb` (R67); meaning R152. -/
  | orBaseR16 (b r : Reg16)
  /-- `OR r8,imm8` = `00011100 10rrr000 iiiiiiii` (R67); meaning R152. -/
  | orR8Imm8 (d : Reg8) (imm : Byte)
  /-- `OR r16,imm16` = `01110rrr iiiiiiii iiiiiiii` (R68); meaning R152. -/
  | orR16Imm16 (d : Reg16) (imm : Word)
  /-- `XOR r8,r8` = `00011110 11rrrbbb` (R67); meaning R153. -/
  | xorR8R8 (d r : Reg8)
  /-- `XOR r16,r16` = `00011111 11rrrbbb` (R67); meaning R153. -/
  | xorR16R16 (d r : Reg16)
  /-- `XOR r8,[base]` = `00011110 00rrrbbb` (R67); meaning R153. -/
  | xorR8Base (d : Reg8) (b : Reg16)
  /-- `XOR r16,[base]` = `00011111 00rrrbbb` (R67); meaning R153. -/
  | xorR16Base (d b : Reg16)
  /-- `XOR [base],r8` = `00011110 01rrrbbb` (R67); meaning R153. -/
  | xorBaseR8 (b : Reg16) (r : Reg8)
  /-- `XOR [base],r16` = `00011111 01rrrbbb` (R67); meaning R153. -/
  | xorBaseR16 (b r : Reg16)
  /-- `XOR r8,imm8` = `00011110 10rrr000 iiiiiiii` (R67); meaning R153. -/
  | xorR8Imm8 (d : Reg8) (imm : Byte)
  /-- `XOR r16,imm16` = `01111rrr iiiiiiii iiiiiiii` (R68); meaning R153. -/
  | xorR16Imm16 (d : Reg16) (imm : Word)
  /-- `CMP r8,r8` = `00100000 11rrrbbb` (R67); meaning R127. -/
  | cmpR8R8 (d r : Reg8)
  /-- `CMP r16,r16` = `00100001 11rrrbbb` (R67); meaning R127. -/
  | cmpR16R16 (d r : Reg16)
  /-- `CMP r8,[base]` = `00100000 00rrrbbb` (R67); meaning R127. -/
  | cmpR8Base (d : Reg8) (b : Reg16)
  /-- `CMP r16,[base]` = `00100001 00rrrbbb` (R67); meaning R127. -/
  | cmpR16Base (d b : Reg16)
  /-- `CMP [base],r8` = `00100000 01rrrbbb` (R67); meaning R127. -/
  | cmpBaseR8 (b : Reg16) (r : Reg8)
  /-- `CMP [base],r16` = `00100001 01rrrbbb` (R67); meaning R127. -/
  | cmpBaseR16 (b r : Reg16)
  /-- `CMP r8,imm8` = `00100000 10rrr000 iiiiiiii` (R67); meaning R127. -/
  | cmpR8Imm8 (d : Reg8) (imm : Byte)
  /-- `CMP r16,imm16` = `10000rrr iiiiiiii iiiiiiii` (R68); meaning R127. -/
  | cmpR16Imm16 (d : Reg16) (imm : Word)
  /-- `MOV r8,[addr16]` = `10100rrr aaaaaaaa aaaaaaaa` (R69); meaning R110. -/
  | movR8Addr (d : Reg8) (a : Word)
  /-- `MOV r16,[addr16]` = `10101rrr aaaaaaaa aaaaaaaa` (R69); meaning R110. -/
  | movR16Addr (d : Reg16) (a : Word)
  /-- `MOV [addr16],r8` = `10110rrr aaaaaaaa aaaaaaaa` (R69); meaning R110. -/
  | movAddrR8 (a : Word) (r : Reg8)
  /-- `MOV [addr16],r16` = `10111rrr aaaaaaaa aaaaaaaa` (R69); meaning R110. -/
  | movAddrR16 (a : Word) (r : Reg16)
  /-- `INC r8` = `00110000 11000rrr` (R70); meaning R129. -/
  | incR8 (r : Reg8)
  /-- `INC r16` = `00110001 11000rrr` (R70); meaning R129. -/
  | incR16 (r : Reg16)
  /-- `DEC r8` = `00110000 11001rrr` (R70); meaning R130. -/
  | decR8 (r : Reg8)
  /-- `DEC r16` = `00110001 11001rrr` (R70); meaning R130. -/
  | decR16 (r : Reg16)
  /-- `NOT r8` = `00110000 11010rrr` (R70); meaning R154. -/
  | notR8 (r : Reg8)
  /-- `NOT r16` = `00110001 11010rrr` (R70); meaning R154. -/
  | notR16 (r : Reg16)
  /-- `NEG r8` = `00110000 11011rrr` (R70); meaning R128. -/
  | negR8 (r : Reg8)
  /-- `NEG r16` = `00110001 11011rrr` (R70); meaning R128. -/
  | negR16 (r : Reg16)
  /-- `MUL r8` = `00110000 11100rrr` (R70); meaning R140. -/
  | mulR8 (r : Reg8)
  /-- `MUL r16` = `00110001 11100rrr` (R70); meaning R140. -/
  | mulR16 (r : Reg16)
  /-- `DIV r8` = `00110000 11101rrr` (R70); meaning R141. -/
  | divR8 (r : Reg8)
  /-- `DIV r16` = `00110001 11101rrr` (R70); meaning R141. -/
  | divR16 (r : Reg16)
  /-- `SHL r8,1` = `00110010 00000rrr` (R71); meaning R156. -/
  | shlR8One (r : Reg8)
  /-- `SHL r8,CL` = `00110010 01000rrr` (R71); meaning R156. -/
  | shlR8Cl (r : Reg8)
  /-- `SHL r8,imm8` = `00110010 10000rrr iiiiiiii` (R71); meaning R156. -/
  | shlR8Imm8 (r : Reg8) (n : Byte)
  /-- `SHL r16,1` = `00110011 00000rrr` (R71); meaning R156. -/
  | shlR16One (r : Reg16)
  /-- `SHL r16,CL` = `00110011 01000rrr` (R71); meaning R156. -/
  | shlR16Cl (r : Reg16)
  /-- `SHL r16,imm8` = `00110011 10000rrr iiiiiiii` (R71); meaning R156. -/
  | shlR16Imm8 (r : Reg16) (n : Byte)
  /-- `SHR r8,1` = `00110010 00001rrr` (R71); meaning R157. -/
  | shrR8One (r : Reg8)
  /-- `SHR r8,CL` = `00110010 01001rrr` (R71); meaning R157. -/
  | shrR8Cl (r : Reg8)
  /-- `SHR r8,imm8` = `00110010 10001rrr iiiiiiii` (R71); meaning R157. -/
  | shrR8Imm8 (r : Reg8) (n : Byte)
  /-- `SHR r16,1` = `00110011 00001rrr` (R71); meaning R157. -/
  | shrR16One (r : Reg16)
  /-- `SHR r16,CL` = `00110011 01001rrr` (R71); meaning R157. -/
  | shrR16Cl (r : Reg16)
  /-- `SHR r16,imm8` = `00110011 10001rrr iiiiiiii` (R71); meaning R157. -/
  | shrR16Imm8 (r : Reg16) (n : Byte)
  /-- `JO label` = `11000000 dddddddd` (R72); meaning R172. -/
  | jo (rel : Byte)
  /-- `JNO label` = `11000001 dddddddd` (R72); meaning R173. -/
  | jno (rel : Byte)
  /-- `JB label` = `11000010 dddddddd` (R72); meaning R174. -/
  | jb (rel : Byte)
  /-- `JNB label` = `11000011 dddddddd` (R72); meaning R175. -/
  | jnb (rel : Byte)
  /-- `JZ label` = `11000100 dddddddd` (R72); meaning R176. -/
  | jz (rel : Byte)
  /-- `JNZ label` = `11000101 dddddddd` (R72); meaning R177. -/
  | jnz (rel : Byte)
  /-- `JBE label` = `11000110 dddddddd` (R72); meaning R178. -/
  | jbe (rel : Byte)
  /-- `JA label` = `11000111 dddddddd` (R72); meaning R179. -/
  | ja (rel : Byte)
  /-- `JS label` = `11001000 dddddddd` (R72); meaning R180. -/
  | js (rel : Byte)
  /-- `JNS label` = `11001001 dddddddd` (R72); meaning R181. -/
  | jns (rel : Byte)
  /-- `JL label` = `11001100 dddddddd` (R72); meaning R182. -/
  | jl (rel : Byte)
  /-- `JGE label` = `11001101 dddddddd` (R72); meaning R183. -/
  | jge (rel : Byte)
  /-- `JLE label` = `11001110 dddddddd` (R72); meaning R184. -/
  | jle (rel : Byte)
  /-- `JG label` = `11001111 dddddddd` (R72); meaning R185. -/
  | jg (rel : Byte)
  /-- `JMP label` = `11010000 dddddddd` (R72); meaning R171. -/
  | jmp (rel : Byte)
  /-- `LOOP label` = `11010001 dddddddd` (R72); meaning R186. -/
  | loop (rel : Byte)
  /-- `HLT` = `11110100` (R73); meaning R187. -/
  | hlt
  deriving DecidableEq, Repr

end Sys2Proof
end

