-- ==== Sys2Proof/WellFormed.lean ====
section
/-! DEFINITION. Well-formedness of an instruction: what an encoding can express beyond the types of
`Instr`'s fields. The one check is the base register of a `[base]` operand (R64, R67, R95). -/

namespace Sys2Proof

/-- The registers that may stand in `[ ]`: BX, BP, SI, DI (R64, R95). -/
def Reg16.isBase : Reg16 → Bool
  | .bx => true
  | .bp => true
  | .si => true
  | .di => true
  | .ax => false
  | .cx => false
  | .dx => false
  | .sp => false

/-- An instruction is well formed when its base register, if it has one, is a legal one (R64). Every
other field has exactly the values its type has. -/
def Instr.wf : Instr → Bool
  | .movR8R8 _ _ => true
  | .movR16R16 _ _ => true
  | .movR8Base _ b => b.isBase
  | .movR16Base _ b => b.isBase
  | .movBaseR8 b _ => b.isBase
  | .movBaseR16 b _ => b.isBase
  | .movR8Imm8 _ _ => true
  | .movR16Imm16 _ _ => true
  | .addR8R8 _ _ => true
  | .addR16R16 _ _ => true
  | .addR8Base _ b => b.isBase
  | .addR16Base _ b => b.isBase
  | .addBaseR8 b _ => b.isBase
  | .addBaseR16 b _ => b.isBase
  | .addR8Imm8 _ _ => true
  | .addR16Imm16 _ _ => true
  | .adcR8R8 _ _ => true
  | .adcR16R16 _ _ => true
  | .adcR8Base _ b => b.isBase
  | .adcR16Base _ b => b.isBase
  | .adcBaseR8 b _ => b.isBase
  | .adcBaseR16 b _ => b.isBase
  | .adcR8Imm8 _ _ => true
  | .adcR16Imm16 _ _ => true
  | .subR8R8 _ _ => true
  | .subR16R16 _ _ => true
  | .subR8Base _ b => b.isBase
  | .subR16Base _ b => b.isBase
  | .subBaseR8 b _ => b.isBase
  | .subBaseR16 b _ => b.isBase
  | .subR8Imm8 _ _ => true
  | .subR16Imm16 _ _ => true
  | .sbbR8R8 _ _ => true
  | .sbbR16R16 _ _ => true
  | .sbbR8Base _ b => b.isBase
  | .sbbR16Base _ b => b.isBase
  | .sbbBaseR8 b _ => b.isBase
  | .sbbBaseR16 b _ => b.isBase
  | .sbbR8Imm8 _ _ => true
  | .sbbR16Imm16 _ _ => true
  | .andR8R8 _ _ => true
  | .andR16R16 _ _ => true
  | .andR8Base _ b => b.isBase
  | .andR16Base _ b => b.isBase
  | .andBaseR8 b _ => b.isBase
  | .andBaseR16 b _ => b.isBase
  | .andR8Imm8 _ _ => true
  | .andR16Imm16 _ _ => true
  | .orR8R8 _ _ => true
  | .orR16R16 _ _ => true
  | .orR8Base _ b => b.isBase
  | .orR16Base _ b => b.isBase
  | .orBaseR8 b _ => b.isBase
  | .orBaseR16 b _ => b.isBase
  | .orR8Imm8 _ _ => true
  | .orR16Imm16 _ _ => true
  | .xorR8R8 _ _ => true
  | .xorR16R16 _ _ => true
  | .xorR8Base _ b => b.isBase
  | .xorR16Base _ b => b.isBase
  | .xorBaseR8 b _ => b.isBase
  | .xorBaseR16 b _ => b.isBase
  | .xorR8Imm8 _ _ => true
  | .xorR16Imm16 _ _ => true
  | .cmpR8R8 _ _ => true
  | .cmpR16R16 _ _ => true
  | .cmpR8Base _ b => b.isBase
  | .cmpR16Base _ b => b.isBase
  | .cmpBaseR8 b _ => b.isBase
  | .cmpBaseR16 b _ => b.isBase
  | .cmpR8Imm8 _ _ => true
  | .cmpR16Imm16 _ _ => true
  | .movR8Addr _ _ => true
  | .movR16Addr _ _ => true
  | .movAddrR8 _ _ => true
  | .movAddrR16 _ _ => true
  | .incR8 _ => true
  | .incR16 _ => true
  | .decR8 _ => true
  | .decR16 _ => true
  | .notR8 _ => true
  | .notR16 _ => true
  | .negR8 _ => true
  | .negR16 _ => true
  | .mulR8 _ => true
  | .mulR16 _ => true
  | .divR8 _ => true
  | .divR16 _ => true
  | .shlR8One _ => true
  | .shlR8Cl _ => true
  | .shlR8Imm8 _ _ => true
  | .shlR16One _ => true
  | .shlR16Cl _ => true
  | .shlR16Imm8 _ _ => true
  | .shrR8One _ => true
  | .shrR8Cl _ => true
  | .shrR8Imm8 _ _ => true
  | .shrR16One _ => true
  | .shrR16Cl _ => true
  | .shrR16Imm8 _ _ => true
  | .jo _ => true
  | .jno _ => true
  | .jb _ => true
  | .jnb _ => true
  | .jz _ => true
  | .jnz _ => true
  | .jbe _ => true
  | .ja _ => true
  | .js _ => true
  | .jns _ => true
  | .jl _ => true
  | .jge _ => true
  | .jle _ => true
  | .jg _ => true
  | .jmp _ => true
  | .loop _ => true
  | .hlt => true

end Sys2Proof
end

