-- ==== Sys2Proof/Decode.lean ====
section
/-! DEFINITION. The encoding of 30_encoding.md: byte-order helpers (R74), the register and operation
numbers (R64, R66, R70 to R72), the total decoder of R78 with every reserved encoding rejected by
name (R75), the encoder written from the same tables, the lengths (R62), the rows of
spec/opcode_table.json (R86), and the decoder's answer on a table word (`decodeTableWord`). -/

namespace Sys2Proof

/-! ### Bytes and words -/

/-- The low byte of a word. -/
def loByte (v : Word) : Byte := v.extractLsb' 0 8

/-- The high byte of a word. -/
def hiByte (v : Word) : Byte := v.extractLsb' 8 8

/-- `hi ++ lo` of 00_scope.md 5.1: the word `hi * 256 + lo`. -/
def joinBytes (hi lo : Byte) : Word := hi ++ lo

/-! ### Register numbers -/

/-- The word register a 3-bit field names under w = 1 (R64, R10). -/
def Reg16.ofField (n : BitVec 3) : Reg16 :=
  match n.toFin with
  | 0 => .ax | 1 => .cx | 2 => .dx | 3 => .bx | 4 => .sp | 5 => .bp | 6 => .si | 7 => .di

/-- The byte register a 3-bit field names under w = 0 (R64, R12). -/
def Reg8.ofField (n : BitVec 3) : Reg8 :=
  match n.toFin with
  | 0 => .al | 1 => .cl | 2 => .dl | 3 => .bl | 4 => .ah | 5 => .ch | 6 => .dh | 7 => .bh

/-- The index of a word register (R10). -/
def Reg16.num : Reg16 → Nat
  | .ax => 0 | .cx => 1 | .dx => 2 | .bx => 3 | .sp => 4 | .bp => 5 | .si => 6 | .di => 7

/-- The index of a byte register (R12). -/
def Reg8.num : Reg8 → Nat
  | .al => 0 | .cl => 1 | .dl => 2 | .bl => 3 | .ah => 4 | .ch => 5 | .dh => 6 | .bh => 7

/-! ### Operation numbers -/

/-- The `op` of a two-operand operation (R66). -/
def TwoOp.num : TwoOp → Nat
  | .mov => 0 | .add => 1 | .adc => 2 | .sub => 3 | .sbb => 4 | .and => 5 | .or => 6 | .xor => 7 | .cmp => 8

/-- The two-operand operation with a given `op` (R66). -/
def TwoOp.ofNum : Nat → Option TwoOp
  | 0 => some .mov
  | 1 => some .add
  | 2 => some .adc
  | 3 => some .sub
  | 4 => some .sbb
  | 5 => some .and
  | 6 => some .or
  | 7 => some .xor
  | 8 => some .cmp
  | _ => none

/-- The `uuu` of a unary operation (R70). -/
def UnaryOp.num : UnaryOp → Nat
  | .inc => 0 | .dec => 1 | .not => 2 | .neg => 3 | .mul => 4 | .div => 5

/-- The unary operation with a given `uuu`; 6 and 7 are reserved (R70). -/
def UnaryOp.ofNum : Nat → Option UnaryOp
  | 0 => some .inc
  | 1 => some .dec
  | 2 => some .not
  | 3 => some .neg
  | 4 => some .mul
  | 5 => some .div
  | _ => none

/-- The `sss` of a shift operation (R71). -/
def ShiftOp.num : ShiftOp → Nat
  | .shl => 0 | .shr => 1

/-- The shift operation with a given `sss`; 2 to 7 are reserved (R71). -/
def ShiftOp.ofNum : Nat → Option ShiftOp
  | 0 => some .shl
  | 1 => some .shr
  | _ => none

/-- The first byte of a jump (R72). -/
def JumpOp.num : JumpOp → Nat
  | .jo => 0xC0 | .jno => 0xC1 | .jb => 0xC2 | .jnb => 0xC3 | .jz => 0xC4 | .jnz => 0xC5
  | .jbe => 0xC6 | .ja => 0xC7 | .js => 0xC8 | .jns => 0xC9 | .jl => 0xCC | .jge => 0xCD
  | .jle => 0xCE | .jg => 0xCF | .jmp => 0xD0 | .loop => 0xD1

/-- The jump with a given first byte; 0xCA and 0xCB are reserved (R72). -/
def JumpOp.ofNum : Nat → Option JumpOp
  | 0xC0 => some .jo
  | 0xC1 => some .jno
  | 0xC2 => some .jb
  | 0xC3 => some .jnb
  | 0xC4 => some .jz
  | 0xC5 => some .jnz
  | 0xC6 => some .jbe
  | 0xC7 => some .ja
  | 0xC8 => some .js
  | 0xC9 => some .jns
  | 0xCC => some .jl
  | 0xCD => some .jge
  | 0xCE => some .jle
  | 0xCF => some .jg
  | 0xD0 => some .jmp
  | 0xD1 => some .loop
  | _ => none

/-! ### From operation and operands to the table's row -/

/-- The byte-wide two-operand instruction with an operation and operands (R67). -/
def Instr.two8 : TwoOp → Form8 → Instr
  | .mov, .regReg d r => .movR8R8 d r
  | .mov, .regMem d b => .movR8Base d b
  | .mov, .memReg b r => .movBaseR8 b r
  | .mov, .regImm d imm => .movR8Imm8 d imm
  | .add, .regReg d r => .addR8R8 d r
  | .add, .regMem d b => .addR8Base d b
  | .add, .memReg b r => .addBaseR8 b r
  | .add, .regImm d imm => .addR8Imm8 d imm
  | .adc, .regReg d r => .adcR8R8 d r
  | .adc, .regMem d b => .adcR8Base d b
  | .adc, .memReg b r => .adcBaseR8 b r
  | .adc, .regImm d imm => .adcR8Imm8 d imm
  | .sub, .regReg d r => .subR8R8 d r
  | .sub, .regMem d b => .subR8Base d b
  | .sub, .memReg b r => .subBaseR8 b r
  | .sub, .regImm d imm => .subR8Imm8 d imm
  | .sbb, .regReg d r => .sbbR8R8 d r
  | .sbb, .regMem d b => .sbbR8Base d b
  | .sbb, .memReg b r => .sbbBaseR8 b r
  | .sbb, .regImm d imm => .sbbR8Imm8 d imm
  | .and, .regReg d r => .andR8R8 d r
  | .and, .regMem d b => .andR8Base d b
  | .and, .memReg b r => .andBaseR8 b r
  | .and, .regImm d imm => .andR8Imm8 d imm
  | .or, .regReg d r => .orR8R8 d r
  | .or, .regMem d b => .orR8Base d b
  | .or, .memReg b r => .orBaseR8 b r
  | .or, .regImm d imm => .orR8Imm8 d imm
  | .xor, .regReg d r => .xorR8R8 d r
  | .xor, .regMem d b => .xorR8Base d b
  | .xor, .memReg b r => .xorBaseR8 b r
  | .xor, .regImm d imm => .xorR8Imm8 d imm
  | .cmp, .regReg d r => .cmpR8R8 d r
  | .cmp, .regMem d b => .cmpR8Base d b
  | .cmp, .memReg b r => .cmpBaseR8 b r
  | .cmp, .regImm d imm => .cmpR8Imm8 d imm

/-- The word-wide two-operand instruction with an operation and operands (R67, R68). -/
def Instr.two16 : TwoOp → Form16 → Instr
  | .mov, .regReg d r => .movR16R16 d r
  | .mov, .regMem d b => .movR16Base d b
  | .mov, .memReg b r => .movBaseR16 b r
  | .mov, .regImm d imm => .movR16Imm16 d imm
  | .add, .regReg d r => .addR16R16 d r
  | .add, .regMem d b => .addR16Base d b
  | .add, .memReg b r => .addBaseR16 b r
  | .add, .regImm d imm => .addR16Imm16 d imm
  | .adc, .regReg d r => .adcR16R16 d r
  | .adc, .regMem d b => .adcR16Base d b
  | .adc, .memReg b r => .adcBaseR16 b r
  | .adc, .regImm d imm => .adcR16Imm16 d imm
  | .sub, .regReg d r => .subR16R16 d r
  | .sub, .regMem d b => .subR16Base d b
  | .sub, .memReg b r => .subBaseR16 b r
  | .sub, .regImm d imm => .subR16Imm16 d imm
  | .sbb, .regReg d r => .sbbR16R16 d r
  | .sbb, .regMem d b => .sbbR16Base d b
  | .sbb, .memReg b r => .sbbBaseR16 b r
  | .sbb, .regImm d imm => .sbbR16Imm16 d imm
  | .and, .regReg d r => .andR16R16 d r
  | .and, .regMem d b => .andR16Base d b
  | .and, .memReg b r => .andBaseR16 b r
  | .and, .regImm d imm => .andR16Imm16 d imm
  | .or, .regReg d r => .orR16R16 d r
  | .or, .regMem d b => .orR16Base d b
  | .or, .memReg b r => .orBaseR16 b r
  | .or, .regImm d imm => .orR16Imm16 d imm
  | .xor, .regReg d r => .xorR16R16 d r
  | .xor, .regMem d b => .xorR16Base d b
  | .xor, .memReg b r => .xorBaseR16 b r
  | .xor, .regImm d imm => .xorR16Imm16 d imm
  | .cmp, .regReg d r => .cmpR16R16 d r
  | .cmp, .regMem d b => .cmpR16Base d b
  | .cmp, .memReg b r => .cmpBaseR16 b r
  | .cmp, .regImm d imm => .cmpR16Imm16 d imm

/-- The byte-wide one-operand instruction with an operation (R70). -/
def Instr.unary8 (op : UnaryOp) (r : Reg8) : Instr :=
  match op with
  | .inc => .incR8 r
  | .dec => .decR8 r
  | .not => .notR8 r
  | .neg => .negR8 r
  | .mul => .mulR8 r
  | .div => .divR8 r

/-- The word-wide one-operand instruction with an operation (R70). -/
def Instr.unary16 (op : UnaryOp) (r : Reg16) : Instr :=
  match op with
  | .inc => .incR16 r
  | .dec => .decR16 r
  | .not => .notR16 r
  | .neg => .negR16 r
  | .mul => .mulR16 r
  | .div => .divR16 r

/-- The byte-wide shift with an operation and a count (R71). -/
def Instr.shift8 (op : ShiftOp) (r : Reg8) (c : ShiftCount) : Instr :=
  match op, c with
  | .shl, .one => .shlR8One r
  | .shl, .cl => .shlR8Cl r
  | .shl, .imm8 n => .shlR8Imm8 r n
  | .shr, .one => .shrR8One r
  | .shr, .cl => .shrR8Cl r
  | .shr, .imm8 n => .shrR8Imm8 r n

/-- The word-wide shift with an operation and a count (R71). -/
def Instr.shift16 (op : ShiftOp) (r : Reg16) (c : ShiftCount) : Instr :=
  match op, c with
  | .shl, .one => .shlR16One r
  | .shl, .cl => .shlR16Cl r
  | .shl, .imm8 n => .shlR16Imm8 r n
  | .shr, .one => .shrR16One r
  | .shr, .cl => .shrR16Cl r
  | .shr, .imm8 n => .shrR16Imm8 r n

/-- The jump with an operation and a displacement (R72). -/
def Instr.jump (op : JumpOp) (rel : Byte) : Instr :=
  match op with
  | .jo => .jo rel
  | .jno => .jno rel
  | .jb => .jb rel
  | .jnb => .jnb rel
  | .jz => .jz rel
  | .jnz => .jnz rel
  | .jbe => .jbe rel
  | .ja => .ja rel
  | .js => .js rel
  | .jns => .jns rel
  | .jl => .jl rel
  | .jge => .jge rel
  | .jle => .jle rel
  | .jg => .jg rel
  | .jmp => .jmp rel
  | .loop => .loop rel

/-! ### The decoder -/

/-- Why an encoding is reserved (R75). -/
inductive Reserved where
  /-- (a) the first byte is one of the 113 reserved ones -/
  | firstByte
  /-- (b) mm = 00 or 01 with a base field that names AX, CX, DX or SP -/
  | baseField
  /-- (b) mm = 10 with w = 1 or bbb other than 000 -/
  | immediateMode
  /-- (c) bits 7:6 of a unary mode byte are not 11 -/
  | unaryMode
  /-- (c) uuu = 110 or 111 -/
  | unaryOp
  /-- (d) cc = 11 -/
  | shiftCount
  /-- (d) sss = 010 or more -/
  | shiftOp
  deriving DecidableEq, Repr

/-- The decoder's answer on the bytes it has been given (R78). -/
inductive Verdict where
  /-- one instruction; bytes past its length are not looked at -/
  | done (i : Instr)
  /-- a reserved encoding, recognised without any further byte -/
  | reserved (why : Reserved)
  /-- the next byte is needed -/
  | more
  deriving DecidableEq, Repr

/-- Bits 7:6 of a mode byte (R63). -/
def modeField (b2 : Byte) : BitVec 2 := b2.extractLsb' 6 2

/-- Bits 5:3 of a mode byte: rrr, uuu or sss (R63). -/
def middleField (b2 : Byte) : BitVec 3 := b2.extractLsb' 3 3

/-- Bits 2:0 of a byte: bbb or rrr (R63). -/
def lowField (b : Byte) : BitVec 3 := b.extractLsb' 0 3

/-- Group G2, op and w known, on the bytes after the first (R67, R78). -/
def decodeG2 (op : TwoOp) (w : Bool) : List Byte → Verdict
  | [] => .more
  | b2 :: rest =>
    let rrr := middleField b2
    let bbb := lowField b2
    let base := Reg16.ofField bbb
    match (modeField b2).toFin with
    | 0 =>
      if base.isBase then
        .done (if w then .two16 op (.regMem (Reg16.ofField rrr) base)
               else .two8 op (.regMem (Reg8.ofField rrr) base))
      else .reserved .baseField
    | 1 =>
      if base.isBase then
        .done (if w then .two16 op (.memReg base (Reg16.ofField rrr))
               else .two8 op (.memReg base (Reg8.ofField rrr)))
      else .reserved .baseField
    | 2 =>
      if w = true ∨ bbb ≠ 0 then .reserved .immediateMode
      else
        match rest with
        | [] => .more
        | b3 :: _ => .done (.two8 op (.regImm (Reg8.ofField rrr) b3))
    | 3 =>
      .done (if w then .two16 op (.regReg (Reg16.ofField rrr) (Reg16.ofField bbb))
             else .two8 op (.regReg (Reg8.ofField rrr) (Reg8.ofField bbb)))

/-- The unary group on the bytes after the first (R70, R78). -/
def decodeUnary (w : Bool) : List Byte → Verdict
  | [] => .more
  | b2 :: _ =>
    if modeField b2 ≠ 3 then .reserved .unaryMode
    else
      match UnaryOp.ofNum (middleField b2).toNat with
      | none => .reserved .unaryOp
      | some op =>
        .done (if w then .unary16 op (Reg16.ofField (lowField b2)) else .unary8 op (Reg8.ofField (lowField b2)))

/-- The shift group on the bytes after the first (R71, R78). -/
def decodeShift (w : Bool) : List Byte → Verdict
  | [] => .more
  | b2 :: rest =>
    let build (op : ShiftOp) (c : ShiftCount) : Instr :=
      if w then .shift16 op (Reg16.ofField (lowField b2)) c else .shift8 op (Reg8.ofField (lowField b2)) c
    match (modeField b2).toFin with
    | 3 => .reserved .shiftCount
    | 0 =>
      match ShiftOp.ofNum (middleField b2).toNat with
      | none => .reserved .shiftOp
      | some op => .done (build op .one)
    | 1 =>
      match ShiftOp.ofNum (middleField b2).toNat with
      | none => .reserved .shiftOp
      | some op => .done (build op .cl)
    | 2 =>
      match ShiftOp.ofNum (middleField b2).toNat with
      | none => .reserved .shiftOp
      | some op =>
        match rest with
        | [] => .more
        | b3 :: _ => .done (build op (.imm8 b3))

/-- Word register with imm16, on the bytes after the first; op and rrr come from the first (R68). -/
def decodeImm16 (op : TwoOp) (rrr : BitVec 3) : List Byte → Verdict
  | [] => .more
  | [_] => .more
  | b2 :: b3 :: _ => .done (.two16 op (.regImm (Reg16.ofField rrr) (joinBytes b3 b2)))

/-- MOV with a direct address, on the bytes after the first; s, w and rrr come from the first (R69). -/
def decodeDirect (s w : Bool) (rrr : BitVec 3) : List Byte → Verdict
  | [] => .more
  | [_] => .more
  | b2 :: b3 :: _ =>
    let a := joinBytes b3 b2
    .done (match s, w with
      | false, false => .movR8Addr (Reg8.ofField rrr) a
      | false, true => .movR16Addr (Reg16.ofField rrr) a
      | true, false => .movAddrR8 a (Reg8.ofField rrr)
      | true, true => .movAddrR16 a (Reg16.ofField rrr))

/-- A jump on the bytes after the first (R72). -/
def decodeJump (op : JumpOp) : List Byte → Verdict
  | [] => .more
  | b2 :: _ => .done (.jump op b2)

/-- The decoder (R78): total on any bytes. It asks for a byte (`more`) only when R78's algorithm
reads one, so a reserved verdict never depends on bytes the algorithm does not read. -/
def decode : List Byte → Verdict
  | [] => .more
  | b1 :: rest =>
    let n := b1.toNat
    let w := b1.getLsbD 0
    if 0x10 ≤ n ∧ n ≤ 0x21 then
      match TwoOp.ofNum ((n - 0x10) / 2) with
      | none => .reserved .firstByte
      | some op => decodeG2 op w rest
    else if n = 0x30 ∨ n = 0x31 then decodeUnary w rest
    else if n = 0x32 ∨ n = 0x33 then decodeShift w rest
    else if 0x40 ≤ n ∧ n ≤ 0x87 then
      match TwoOp.ofNum ((n - 0x40) / 8) with
      | none => .reserved .firstByte
      | some op => decodeImm16 op (lowField b1) rest
    else if 0xA0 ≤ n ∧ n ≤ 0xBF then decodeDirect (b1.getLsbD 4) (b1.getLsbD 3) (lowField b1) rest
    else
      match JumpOp.ofNum n with
      | some op => decodeJump op rest
      | none => if n = 0xF4 then .done .hlt else .reserved .firstByte

/-! ### The encoder -/

/-- The first byte of group G2: `0x10 + 2*op + w` (R66). -/
def g2Byte (op : TwoOp) (w : Nat) : Byte := BitVec.ofNat 8 (0x10 + 2 * op.num + w)

/-- A mode byte `mm rrr bbb` (R63). -/
def modeByte (mm rrr bbb : Nat) : Byte := BitVec.ofNat 8 (64 * mm + 8 * rrr + bbb)

/-- The three bytes of a word register with imm16: `0x40 + 8*op + rrr`, low byte, high byte (R68). -/
def imm16Bytes (op : TwoOp) (rrr : Nat) (imm : Word) : List Byte :=
  [BitVec.ofNat 8 (0x40 + 8 * op.num + rrr), loByte imm, hiByte imm]

/-- The three bytes of a MOV with a direct address: `0xA0 + 16*s + 8*w + rrr`, low byte, high byte (R69). -/
def directBytes (s w rrr : Nat) (a : Word) : List Byte :=
  [BitVec.ofNat 8 (0xA0 + 16 * s + 8 * w + rrr), loByte a, hiByte a]

/-- The two bytes of a unary instruction (R70). -/
def unaryBytes (op : UnaryOp) (w rrr : Nat) : List Byte :=
  [BitVec.ofNat 8 (0x30 + w), modeByte 3 op.num rrr]

/-- The first two bytes of a shift; `cc` selects the count (R71). -/
def shiftBytes (op : ShiftOp) (w cc rrr : Nat) : List Byte :=
  [BitVec.ofNat 8 (0x32 + w), modeByte cc op.num rrr]

/-- The two bytes of a jump (R72). -/
def jumpBytes (op : JumpOp) (rel : Byte) : List Byte := [BitVec.ofNat 8 op.num, rel]

/-- The bytes of an instruction, first byte first (R66 to R73). For an instruction that is not well
formed these bytes are reserved (R75). -/
def encode : Instr → List Byte
  | .movR8R8 d r => [g2Byte .mov 0, modeByte 3 d.num r.num]
  | .movR16R16 d r => [g2Byte .mov 1, modeByte 3 d.num r.num]
  | .movR8Base d b => [g2Byte .mov 0, modeByte 0 d.num b.num]
  | .movR16Base d b => [g2Byte .mov 1, modeByte 0 d.num b.num]
  | .movBaseR8 b r => [g2Byte .mov 0, modeByte 1 r.num b.num]
  | .movBaseR16 b r => [g2Byte .mov 1, modeByte 1 r.num b.num]
  | .movR8Imm8 d imm => [g2Byte .mov 0, modeByte 2 d.num 0, imm]
  | .movR16Imm16 d imm => imm16Bytes .mov d.num imm
  | .addR8R8 d r => [g2Byte .add 0, modeByte 3 d.num r.num]
  | .addR16R16 d r => [g2Byte .add 1, modeByte 3 d.num r.num]
  | .addR8Base d b => [g2Byte .add 0, modeByte 0 d.num b.num]
  | .addR16Base d b => [g2Byte .add 1, modeByte 0 d.num b.num]
  | .addBaseR8 b r => [g2Byte .add 0, modeByte 1 r.num b.num]
  | .addBaseR16 b r => [g2Byte .add 1, modeByte 1 r.num b.num]
  | .addR8Imm8 d imm => [g2Byte .add 0, modeByte 2 d.num 0, imm]
  | .addR16Imm16 d imm => imm16Bytes .add d.num imm
  | .adcR8R8 d r => [g2Byte .adc 0, modeByte 3 d.num r.num]
  | .adcR16R16 d r => [g2Byte .adc 1, modeByte 3 d.num r.num]
  | .adcR8Base d b => [g2Byte .adc 0, modeByte 0 d.num b.num]
  | .adcR16Base d b => [g2Byte .adc 1, modeByte 0 d.num b.num]
  | .adcBaseR8 b r => [g2Byte .adc 0, modeByte 1 r.num b.num]
  | .adcBaseR16 b r => [g2Byte .adc 1, modeByte 1 r.num b.num]
  | .adcR8Imm8 d imm => [g2Byte .adc 0, modeByte 2 d.num 0, imm]
  | .adcR16Imm16 d imm => imm16Bytes .adc d.num imm
  | .subR8R8 d r => [g2Byte .sub 0, modeByte 3 d.num r.num]
  | .subR16R16 d r => [g2Byte .sub 1, modeByte 3 d.num r.num]
  | .subR8Base d b => [g2Byte .sub 0, modeByte 0 d.num b.num]
  | .subR16Base d b => [g2Byte .sub 1, modeByte 0 d.num b.num]
  | .subBaseR8 b r => [g2Byte .sub 0, modeByte 1 r.num b.num]
  | .subBaseR16 b r => [g2Byte .sub 1, modeByte 1 r.num b.num]
  | .subR8Imm8 d imm => [g2Byte .sub 0, modeByte 2 d.num 0, imm]
  | .subR16Imm16 d imm => imm16Bytes .sub d.num imm
  | .sbbR8R8 d r => [g2Byte .sbb 0, modeByte 3 d.num r.num]
  | .sbbR16R16 d r => [g2Byte .sbb 1, modeByte 3 d.num r.num]
  | .sbbR8Base d b => [g2Byte .sbb 0, modeByte 0 d.num b.num]
  | .sbbR16Base d b => [g2Byte .sbb 1, modeByte 0 d.num b.num]
  | .sbbBaseR8 b r => [g2Byte .sbb 0, modeByte 1 r.num b.num]
  | .sbbBaseR16 b r => [g2Byte .sbb 1, modeByte 1 r.num b.num]
  | .sbbR8Imm8 d imm => [g2Byte .sbb 0, modeByte 2 d.num 0, imm]
  | .sbbR16Imm16 d imm => imm16Bytes .sbb d.num imm
  | .andR8R8 d r => [g2Byte .and 0, modeByte 3 d.num r.num]
  | .andR16R16 d r => [g2Byte .and 1, modeByte 3 d.num r.num]
  | .andR8Base d b => [g2Byte .and 0, modeByte 0 d.num b.num]
  | .andR16Base d b => [g2Byte .and 1, modeByte 0 d.num b.num]
  | .andBaseR8 b r => [g2Byte .and 0, modeByte 1 r.num b.num]
  | .andBaseR16 b r => [g2Byte .and 1, modeByte 1 r.num b.num]
  | .andR8Imm8 d imm => [g2Byte .and 0, modeByte 2 d.num 0, imm]
  | .andR16Imm16 d imm => imm16Bytes .and d.num imm
  | .orR8R8 d r => [g2Byte .or 0, modeByte 3 d.num r.num]
  | .orR16R16 d r => [g2Byte .or 1, modeByte 3 d.num r.num]
  | .orR8Base d b => [g2Byte .or 0, modeByte 0 d.num b.num]
  | .orR16Base d b => [g2Byte .or 1, modeByte 0 d.num b.num]
  | .orBaseR8 b r => [g2Byte .or 0, modeByte 1 r.num b.num]
  | .orBaseR16 b r => [g2Byte .or 1, modeByte 1 r.num b.num]
  | .orR8Imm8 d imm => [g2Byte .or 0, modeByte 2 d.num 0, imm]
  | .orR16Imm16 d imm => imm16Bytes .or d.num imm
  | .xorR8R8 d r => [g2Byte .xor 0, modeByte 3 d.num r.num]
  | .xorR16R16 d r => [g2Byte .xor 1, modeByte 3 d.num r.num]
  | .xorR8Base d b => [g2Byte .xor 0, modeByte 0 d.num b.num]
  | .xorR16Base d b => [g2Byte .xor 1, modeByte 0 d.num b.num]
  | .xorBaseR8 b r => [g2Byte .xor 0, modeByte 1 r.num b.num]
  | .xorBaseR16 b r => [g2Byte .xor 1, modeByte 1 r.num b.num]
  | .xorR8Imm8 d imm => [g2Byte .xor 0, modeByte 2 d.num 0, imm]
  | .xorR16Imm16 d imm => imm16Bytes .xor d.num imm
  | .cmpR8R8 d r => [g2Byte .cmp 0, modeByte 3 d.num r.num]
  | .cmpR16R16 d r => [g2Byte .cmp 1, modeByte 3 d.num r.num]
  | .cmpR8Base d b => [g2Byte .cmp 0, modeByte 0 d.num b.num]
  | .cmpR16Base d b => [g2Byte .cmp 1, modeByte 0 d.num b.num]
  | .cmpBaseR8 b r => [g2Byte .cmp 0, modeByte 1 r.num b.num]
  | .cmpBaseR16 b r => [g2Byte .cmp 1, modeByte 1 r.num b.num]
  | .cmpR8Imm8 d imm => [g2Byte .cmp 0, modeByte 2 d.num 0, imm]
  | .cmpR16Imm16 d imm => imm16Bytes .cmp d.num imm
  | .movR8Addr d a => directBytes 0 0 d.num a
  | .movR16Addr d a => directBytes 0 1 d.num a
  | .movAddrR8 a r => directBytes 1 0 r.num a
  | .movAddrR16 a r => directBytes 1 1 r.num a
  | .incR8 r => unaryBytes .inc 0 r.num
  | .incR16 r => unaryBytes .inc 1 r.num
  | .decR8 r => unaryBytes .dec 0 r.num
  | .decR16 r => unaryBytes .dec 1 r.num
  | .notR8 r => unaryBytes .not 0 r.num
  | .notR16 r => unaryBytes .not 1 r.num
  | .negR8 r => unaryBytes .neg 0 r.num
  | .negR16 r => unaryBytes .neg 1 r.num
  | .mulR8 r => unaryBytes .mul 0 r.num
  | .mulR16 r => unaryBytes .mul 1 r.num
  | .divR8 r => unaryBytes .div 0 r.num
  | .divR16 r => unaryBytes .div 1 r.num
  | .shlR8One r => shiftBytes .shl 0 0 r.num
  | .shlR8Cl r => shiftBytes .shl 0 1 r.num
  | .shlR8Imm8 r n => shiftBytes .shl 0 2 r.num ++ [n]
  | .shlR16One r => shiftBytes .shl 1 0 r.num
  | .shlR16Cl r => shiftBytes .shl 1 1 r.num
  | .shlR16Imm8 r n => shiftBytes .shl 1 2 r.num ++ [n]
  | .shrR8One r => shiftBytes .shr 0 0 r.num
  | .shrR8Cl r => shiftBytes .shr 0 1 r.num
  | .shrR8Imm8 r n => shiftBytes .shr 0 2 r.num ++ [n]
  | .shrR16One r => shiftBytes .shr 1 0 r.num
  | .shrR16Cl r => shiftBytes .shr 1 1 r.num
  | .shrR16Imm8 r n => shiftBytes .shr 1 2 r.num ++ [n]
  | .jo rel => jumpBytes .jo rel
  | .jno rel => jumpBytes .jno rel
  | .jb rel => jumpBytes .jb rel
  | .jnb rel => jumpBytes .jnb rel
  | .jz rel => jumpBytes .jz rel
  | .jnz rel => jumpBytes .jnz rel
  | .jbe rel => jumpBytes .jbe rel
  | .ja rel => jumpBytes .ja rel
  | .js rel => jumpBytes .js rel
  | .jns rel => jumpBytes .jns rel
  | .jl rel => jumpBytes .jl rel
  | .jge rel => jumpBytes .jge rel
  | .jle rel => jumpBytes .jle rel
  | .jg rel => jumpBytes .jg rel
  | .jmp rel => jumpBytes .jmp rel
  | .loop rel => jumpBytes .loop rel
  | .hlt => [0xF4#8]

/-! ### Lengths and the opcode table -/

/-- The length class of an instruction (R61, R62): 1 for HLT, 3 for the forms with an immediate or a
direct address, 2 for all others. -/
def Instr.length : Instr → Nat
  | .movR8R8 _ _ => 2
  | .movR16R16 _ _ => 2
  | .movR8Base _ _ => 2
  | .movR16Base _ _ => 2
  | .movBaseR8 _ _ => 2
  | .movBaseR16 _ _ => 2
  | .movR8Imm8 _ _ => 3
  | .movR16Imm16 _ _ => 3
  | .addR8R8 _ _ => 2
  | .addR16R16 _ _ => 2
  | .addR8Base _ _ => 2
  | .addR16Base _ _ => 2
  | .addBaseR8 _ _ => 2
  | .addBaseR16 _ _ => 2
  | .addR8Imm8 _ _ => 3
  | .addR16Imm16 _ _ => 3
  | .adcR8R8 _ _ => 2
  | .adcR16R16 _ _ => 2
  | .adcR8Base _ _ => 2
  | .adcR16Base _ _ => 2
  | .adcBaseR8 _ _ => 2
  | .adcBaseR16 _ _ => 2
  | .adcR8Imm8 _ _ => 3
  | .adcR16Imm16 _ _ => 3
  | .subR8R8 _ _ => 2
  | .subR16R16 _ _ => 2
  | .subR8Base _ _ => 2
  | .subR16Base _ _ => 2
  | .subBaseR8 _ _ => 2
  | .subBaseR16 _ _ => 2
  | .subR8Imm8 _ _ => 3
  | .subR16Imm16 _ _ => 3
  | .sbbR8R8 _ _ => 2
  | .sbbR16R16 _ _ => 2
  | .sbbR8Base _ _ => 2
  | .sbbR16Base _ _ => 2
  | .sbbBaseR8 _ _ => 2
  | .sbbBaseR16 _ _ => 2
  | .sbbR8Imm8 _ _ => 3
  | .sbbR16Imm16 _ _ => 3
  | .andR8R8 _ _ => 2
  | .andR16R16 _ _ => 2
  | .andR8Base _ _ => 2
  | .andR16Base _ _ => 2
  | .andBaseR8 _ _ => 2
  | .andBaseR16 _ _ => 2
  | .andR8Imm8 _ _ => 3
  | .andR16Imm16 _ _ => 3
  | .orR8R8 _ _ => 2
  | .orR16R16 _ _ => 2
  | .orR8Base _ _ => 2
  | .orR16Base _ _ => 2
  | .orBaseR8 _ _ => 2
  | .orBaseR16 _ _ => 2
  | .orR8Imm8 _ _ => 3
  | .orR16Imm16 _ _ => 3
  | .xorR8R8 _ _ => 2
  | .xorR16R16 _ _ => 2
  | .xorR8Base _ _ => 2
  | .xorR16Base _ _ => 2
  | .xorBaseR8 _ _ => 2
  | .xorBaseR16 _ _ => 2
  | .xorR8Imm8 _ _ => 3
  | .xorR16Imm16 _ _ => 3
  | .cmpR8R8 _ _ => 2
  | .cmpR16R16 _ _ => 2
  | .cmpR8Base _ _ => 2
  | .cmpR16Base _ _ => 2
  | .cmpBaseR8 _ _ => 2
  | .cmpBaseR16 _ _ => 2
  | .cmpR8Imm8 _ _ => 3
  | .cmpR16Imm16 _ _ => 3
  | .movR8Addr _ _ => 3
  | .movR16Addr _ _ => 3
  | .movAddrR8 _ _ => 3
  | .movAddrR16 _ _ => 3
  | .incR8 _ => 2
  | .incR16 _ => 2
  | .decR8 _ => 2
  | .decR16 _ => 2
  | .notR8 _ => 2
  | .notR16 _ => 2
  | .negR8 _ => 2
  | .negR16 _ => 2
  | .mulR8 _ => 2
  | .mulR16 _ => 2
  | .divR8 _ => 2
  | .divR16 _ => 2
  | .shlR8One _ => 2
  | .shlR8Cl _ => 2
  | .shlR8Imm8 _ _ => 3
  | .shlR16One _ => 2
  | .shlR16Cl _ => 2
  | .shlR16Imm8 _ _ => 3
  | .shrR8One _ => 2
  | .shrR8Cl _ => 2
  | .shrR8Imm8 _ _ => 3
  | .shrR16One _ => 2
  | .shrR16Cl _ => 2
  | .shrR16Imm8 _ _ => 3
  | .jo _ => 2
  | .jno _ => 2
  | .jb _ => 2
  | .jnb _ => 2
  | .jz _ => 2
  | .jnz _ => 2
  | .jbe _ => 2
  | .ja _ => 2
  | .js _ => 2
  | .jns _ => 2
  | .jl _ => 2
  | .jge _ => 2
  | .jle _ => 2
  | .jg _ => 2
  | .jmp _ => 2
  | .loop _ => 2
  | .hlt => 1

/-- R62's table: the length of the instruction whose first two bytes are given, by their values;
none where the first byte is reserved. -/
def lengthOfBytes (b1 b2 : Byte) : Option Nat :=
  let n := b1.toNat
  let long := if b2.toNat / 64 = 2 then 3 else 2
  if 0x10 ≤ n ∧ n ≤ 0x21 then some long
  else if n = 0x30 ∨ n = 0x31 then some 2
  else if n = 0x32 ∨ n = 0x33 then some long
  else if 0x40 ≤ n ∧ n ≤ 0x87 then some 3
  else if 0xA0 ≤ n ∧ n ≤ 0xBF then some 3
  else if (0xC0 ≤ n ∧ n ≤ 0xC9) ∨ (0xCC ≤ n ∧ n ≤ 0xD1) then some 2
  else if n = 0xF4 then some 1
  else none

/-- One row of spec/opcode_table.json, as R86 describes it: a pair of bytes selects the row when
`(b1 * 256 + b2) &&& mask = pattern`. -/
structure OpcodeRow where
  pattern : Nat
  mask : Nat
  length : Nat
  deriving DecidableEq, Repr

/-- The row of spec/opcode_table.json of each instruction, copied from the table's `match`, `mask` and
`length`. The decoder and the encoder do not use it; they are stated to agree with it. -/
def Instr.opcodeRow : Instr → OpcodeRow
  | .movR8R8 _ _ => ⟨0x10C0, 0xFFC0, 2⟩
  | .movR16R16 _ _ => ⟨0x11C0, 0xFFC0, 2⟩
  | .movR8Base _ _ => ⟨0x1000, 0xFFC0, 2⟩
  | .movR16Base _ _ => ⟨0x1100, 0xFFC0, 2⟩
  | .movBaseR8 _ _ => ⟨0x1040, 0xFFC0, 2⟩
  | .movBaseR16 _ _ => ⟨0x1140, 0xFFC0, 2⟩
  | .movR8Imm8 _ _ => ⟨0x1080, 0xFFC7, 3⟩
  | .movR16Imm16 _ _ => ⟨0x4000, 0xF800, 3⟩
  | .addR8R8 _ _ => ⟨0x12C0, 0xFFC0, 2⟩
  | .addR16R16 _ _ => ⟨0x13C0, 0xFFC0, 2⟩
  | .addR8Base _ _ => ⟨0x1200, 0xFFC0, 2⟩
  | .addR16Base _ _ => ⟨0x1300, 0xFFC0, 2⟩
  | .addBaseR8 _ _ => ⟨0x1240, 0xFFC0, 2⟩
  | .addBaseR16 _ _ => ⟨0x1340, 0xFFC0, 2⟩
  | .addR8Imm8 _ _ => ⟨0x1280, 0xFFC7, 3⟩
  | .addR16Imm16 _ _ => ⟨0x4800, 0xF800, 3⟩
  | .adcR8R8 _ _ => ⟨0x14C0, 0xFFC0, 2⟩
  | .adcR16R16 _ _ => ⟨0x15C0, 0xFFC0, 2⟩
  | .adcR8Base _ _ => ⟨0x1400, 0xFFC0, 2⟩
  | .adcR16Base _ _ => ⟨0x1500, 0xFFC0, 2⟩
  | .adcBaseR8 _ _ => ⟨0x1440, 0xFFC0, 2⟩
  | .adcBaseR16 _ _ => ⟨0x1540, 0xFFC0, 2⟩
  | .adcR8Imm8 _ _ => ⟨0x1480, 0xFFC7, 3⟩
  | .adcR16Imm16 _ _ => ⟨0x5000, 0xF800, 3⟩
  | .subR8R8 _ _ => ⟨0x16C0, 0xFFC0, 2⟩
  | .subR16R16 _ _ => ⟨0x17C0, 0xFFC0, 2⟩
  | .subR8Base _ _ => ⟨0x1600, 0xFFC0, 2⟩
  | .subR16Base _ _ => ⟨0x1700, 0xFFC0, 2⟩
  | .subBaseR8 _ _ => ⟨0x1640, 0xFFC0, 2⟩
  | .subBaseR16 _ _ => ⟨0x1740, 0xFFC0, 2⟩
  | .subR8Imm8 _ _ => ⟨0x1680, 0xFFC7, 3⟩
  | .subR16Imm16 _ _ => ⟨0x5800, 0xF800, 3⟩
  | .sbbR8R8 _ _ => ⟨0x18C0, 0xFFC0, 2⟩
  | .sbbR16R16 _ _ => ⟨0x19C0, 0xFFC0, 2⟩
  | .sbbR8Base _ _ => ⟨0x1800, 0xFFC0, 2⟩
  | .sbbR16Base _ _ => ⟨0x1900, 0xFFC0, 2⟩
  | .sbbBaseR8 _ _ => ⟨0x1840, 0xFFC0, 2⟩
  | .sbbBaseR16 _ _ => ⟨0x1940, 0xFFC0, 2⟩
  | .sbbR8Imm8 _ _ => ⟨0x1880, 0xFFC7, 3⟩
  | .sbbR16Imm16 _ _ => ⟨0x6000, 0xF800, 3⟩
  | .andR8R8 _ _ => ⟨0x1AC0, 0xFFC0, 2⟩
  | .andR16R16 _ _ => ⟨0x1BC0, 0xFFC0, 2⟩
  | .andR8Base _ _ => ⟨0x1A00, 0xFFC0, 2⟩
  | .andR16Base _ _ => ⟨0x1B00, 0xFFC0, 2⟩
  | .andBaseR8 _ _ => ⟨0x1A40, 0xFFC0, 2⟩
  | .andBaseR16 _ _ => ⟨0x1B40, 0xFFC0, 2⟩
  | .andR8Imm8 _ _ => ⟨0x1A80, 0xFFC7, 3⟩
  | .andR16Imm16 _ _ => ⟨0x6800, 0xF800, 3⟩
  | .orR8R8 _ _ => ⟨0x1CC0, 0xFFC0, 2⟩
  | .orR16R16 _ _ => ⟨0x1DC0, 0xFFC0, 2⟩
  | .orR8Base _ _ => ⟨0x1C00, 0xFFC0, 2⟩
  | .orR16Base _ _ => ⟨0x1D00, 0xFFC0, 2⟩
  | .orBaseR8 _ _ => ⟨0x1C40, 0xFFC0, 2⟩
  | .orBaseR16 _ _ => ⟨0x1D40, 0xFFC0, 2⟩
  | .orR8Imm8 _ _ => ⟨0x1C80, 0xFFC7, 3⟩
  | .orR16Imm16 _ _ => ⟨0x7000, 0xF800, 3⟩
  | .xorR8R8 _ _ => ⟨0x1EC0, 0xFFC0, 2⟩
  | .xorR16R16 _ _ => ⟨0x1FC0, 0xFFC0, 2⟩
  | .xorR8Base _ _ => ⟨0x1E00, 0xFFC0, 2⟩
  | .xorR16Base _ _ => ⟨0x1F00, 0xFFC0, 2⟩
  | .xorBaseR8 _ _ => ⟨0x1E40, 0xFFC0, 2⟩
  | .xorBaseR16 _ _ => ⟨0x1F40, 0xFFC0, 2⟩
  | .xorR8Imm8 _ _ => ⟨0x1E80, 0xFFC7, 3⟩
  | .xorR16Imm16 _ _ => ⟨0x7800, 0xF800, 3⟩
  | .cmpR8R8 _ _ => ⟨0x20C0, 0xFFC0, 2⟩
  | .cmpR16R16 _ _ => ⟨0x21C0, 0xFFC0, 2⟩
  | .cmpR8Base _ _ => ⟨0x2000, 0xFFC0, 2⟩
  | .cmpR16Base _ _ => ⟨0x2100, 0xFFC0, 2⟩
  | .cmpBaseR8 _ _ => ⟨0x2040, 0xFFC0, 2⟩
  | .cmpBaseR16 _ _ => ⟨0x2140, 0xFFC0, 2⟩
  | .cmpR8Imm8 _ _ => ⟨0x2080, 0xFFC7, 3⟩
  | .cmpR16Imm16 _ _ => ⟨0x8000, 0xF800, 3⟩
  | .movR8Addr _ _ => ⟨0xA000, 0xF800, 3⟩
  | .movR16Addr _ _ => ⟨0xA800, 0xF800, 3⟩
  | .movAddrR8 _ _ => ⟨0xB000, 0xF800, 3⟩
  | .movAddrR16 _ _ => ⟨0xB800, 0xF800, 3⟩
  | .incR8 _ => ⟨0x30C0, 0xFFF8, 2⟩
  | .incR16 _ => ⟨0x31C0, 0xFFF8, 2⟩
  | .decR8 _ => ⟨0x30C8, 0xFFF8, 2⟩
  | .decR16 _ => ⟨0x31C8, 0xFFF8, 2⟩
  | .notR8 _ => ⟨0x30D0, 0xFFF8, 2⟩
  | .notR16 _ => ⟨0x31D0, 0xFFF8, 2⟩
  | .negR8 _ => ⟨0x30D8, 0xFFF8, 2⟩
  | .negR16 _ => ⟨0x31D8, 0xFFF8, 2⟩
  | .mulR8 _ => ⟨0x30E0, 0xFFF8, 2⟩
  | .mulR16 _ => ⟨0x31E0, 0xFFF8, 2⟩
  | .divR8 _ => ⟨0x30E8, 0xFFF8, 2⟩
  | .divR16 _ => ⟨0x31E8, 0xFFF8, 2⟩
  | .shlR8One _ => ⟨0x3200, 0xFFF8, 2⟩
  | .shlR8Cl _ => ⟨0x3240, 0xFFF8, 2⟩
  | .shlR8Imm8 _ _ => ⟨0x3280, 0xFFF8, 3⟩
  | .shlR16One _ => ⟨0x3300, 0xFFF8, 2⟩
  | .shlR16Cl _ => ⟨0x3340, 0xFFF8, 2⟩
  | .shlR16Imm8 _ _ => ⟨0x3380, 0xFFF8, 3⟩
  | .shrR8One _ => ⟨0x3208, 0xFFF8, 2⟩
  | .shrR8Cl _ => ⟨0x3248, 0xFFF8, 2⟩
  | .shrR8Imm8 _ _ => ⟨0x3288, 0xFFF8, 3⟩
  | .shrR16One _ => ⟨0x3308, 0xFFF8, 2⟩
  | .shrR16Cl _ => ⟨0x3348, 0xFFF8, 2⟩
  | .shrR16Imm8 _ _ => ⟨0x3388, 0xFFF8, 3⟩
  | .jo _ => ⟨0xC000, 0xFF00, 2⟩
  | .jno _ => ⟨0xC100, 0xFF00, 2⟩
  | .jb _ => ⟨0xC200, 0xFF00, 2⟩
  | .jnb _ => ⟨0xC300, 0xFF00, 2⟩
  | .jz _ => ⟨0xC400, 0xFF00, 2⟩
  | .jnz _ => ⟨0xC500, 0xFF00, 2⟩
  | .jbe _ => ⟨0xC600, 0xFF00, 2⟩
  | .ja _ => ⟨0xC700, 0xFF00, 2⟩
  | .js _ => ⟨0xC800, 0xFF00, 2⟩
  | .jns _ => ⟨0xC900, 0xFF00, 2⟩
  | .jl _ => ⟨0xCC00, 0xFF00, 2⟩
  | .jge _ => ⟨0xCD00, 0xFF00, 2⟩
  | .jle _ => ⟨0xCE00, 0xFF00, 2⟩
  | .jg _ => ⟨0xCF00, 0xFF00, 2⟩
  | .jmp _ => ⟨0xD000, 0xFF00, 2⟩
  | .loop _ => ⟨0xD100, 0xFF00, 2⟩
  | .hlt => ⟨0xF400, 0xFF00, 1⟩

/-! ### Table words -/

/-- Byte `k` of a table word of `nbits` bits. The table numbers a row's bits with bit 0 the least
significant bit of the row's LAST byte (spec/98_reader.md, R86: `b1 * 256 + b2`), so the first byte
is the most significant one; bytes the table gives no bits are 0 (assumption 4). -/
def tableByte (nbits w k : Nat) : Byte :=
  if 8 * (k + 1) ≤ nbits then BitVec.ofNat 8 (w >>> (nbits - 8 * (k + 1))) else 0

/-- The bytes of a table word in memory order, padded with zeros to the longest instruction. -/
def tableBytes (nbits w : Nat) : List Byte :=
  [tableByte nbits w 0, tableByte nbits w 1, tableByte nbits w 2]

/-- The instruction the decoder reads from a table word; none where it refuses. -/
def decodeTableWord (nbits w : Nat) : Option Instr :=
  match decode (tableBytes nbits w) with
  | .done i => some i
  | .reserved _ => none
  | .more => none

end Sys2Proof
end

