-- ==== Sys2Proof/Machine/State.lean ====
section
/-! DEFINITION. The state of the machine, whole: eight word registers, IP, six flags, RUN, FAULT, ENTRY
and MEM (10_state.md, introduction; 20_memory.md R40), the two parameters beside them (R3), the
power-on state (R230), and the two reason types of the host's interface. There is no other state (R25
to R28). -/

namespace Sys2Proof.Machine

/-- The eight word registers, one home each; a byte register is a half of one of the first four (R10, R12). -/
structure Regs where
  ax : Word
  cx : Word
  dx : Word
  bx : Word
  sp : Word
  bp : Word
  si : Word
  di : Word
  deriving DecidableEq, Repr

/-- The six independent flags (R18): carry, zero, sign, overflow, auxiliary carry, parity. -/
structure Flags where
  cf : Bool
  zf : Bool
  sf : Bool
  of : Bool
  af : Bool
  pf : Bool
  deriving DecidableEq, Repr

/-- The values of RUN (R22). -/
inductive RunState where
  | ready | running | halted | faulted
  deriving DecidableEq, Repr

/-- The three fault causes (R200). -/
inductive FaultCause where
  /-- a memory cell at or beyond MEM_SIZE was accessed (R201) -/
  | addressError
  /-- reserved bytes at IP, or IP outside CODE_STARTS (R202) -/
  | invalidAddressError
  /-- DIV by zero, or a quotient that does not fit (R203) -/
  | divideError
  deriving DecidableEq, Repr

/-- What FAULT holds when it is not `none`: a cause and its `info` (R23). -/
structure FaultRecord where
  cause : FaultCause
  info : Nat
  deriving DecidableEq, Repr

/-- The memory: the cells that do not hold 0, by rising address (R40; every cell is 0 at power-on, R29). -/
abbrev Memory := List Host.Cell

/-- The state of the machine. -/
structure State where
  /-- `R16[0..7]` (R10) -/
  regs : Regs
  /-- `IP` (R16) -/
  ip : Word
  /-- CF, ZF, SF, OF, AF, PF (R18) -/
  flags : Flags
  /-- `RUN` (R22) -/
  run : RunState
  /-- `FAULT`: none, or a cause and its info (R23) -/
  fault : Option FaultRecord
  /-- `ENTRY`: the load address (R24) -/
  entry : Word
  /-- `MEM` (R40) -/
  mem : Memory
  /-- `MEM_SIZE` and `CODE_STARTS` (R3, R93): parameters, which no step changes (assumption 2) -/
  config : Config
  deriving DecidableEq, Repr

/-- All registers zero (R29, R30). -/
def Regs.zero : Regs := ⟨0, 0, 0, 0, 0, 0, 0, 0⟩

/-- All flags false (R29, R30). -/
def Flags.clear : Flags := ⟨false, false, false, false, false, false⟩

/-- The machine at power-on, for given parameters (R29, R230). -/
def State.powerOn (c : Config) : State where
  regs := Regs.zero
  ip := 0
  flags := Flags.clear
  run := .ready
  fault := none
  entry := 0
  mem := []
  config := c

/-- The machine right after power-on with the default parameters (R230, R3). `Reset` leaves it as it is
(R231): ENTRY is 0 and so is IP. -/
def State.reset : State := State.powerOn Config.standard

/-- Why a step ends the machine outside the state: nothing does. Every fault of this hardware has an
effect the spec gives in full (R204: FAULT and RUN are written, nothing else changes), so a fault is a
next state and this type has no constructor (assumption 1; safe: no behaviour of the spec is lost). -/
inductive Fault where
  deriving DecidableEq, Repr

/-- Why a step is refused. -/
inductive Refusal where
  /-- Raised by an arm of `exec` whose instruction has no meaning yet; no arm is left in that state (safe). -/
  | notModelled (mnemonic : String)
  /-- Raised by `step` when RUN = Halted: the request is refused and changes no state (R91); safe. -/
  | coreHalted
  /-- Raised by `step` when RUN = Faulted: the request is refused and changes no state (R91, R206); safe. -/
  | coreFaulted
  deriving DecidableEq, Repr

/-- The outcome of a step or of an instruction. -/
abbrev StepOutcome := Host.Outcome State Fault Refusal

end Sys2Proof.Machine
end

