-- ==== Sys2Proof/Machine/Flags.lean ====
section
/-! DEFINITION. The arithmetic of the core and every flag computation: `Add_W` (R120), `Sub_W` (R121),
`SetSZP_W` (R122), `Logic_W` (R150), the shifts (R155 to R157), and, for each operation, the result together with
all six flags after it. A flag the operation does not write is passed on unchanged (R20, D13). -/

namespace Sys2Proof.Machine

/-- What `Add_W` and `Sub_W` return: the result and CF, OF, AF (R120, R121). -/
structure Sum (w : Nat) where
  result : BitVec w
  cf : Bool
  of : Bool
  af : Bool
  deriving DecidableEq, Repr

/-- A result with all six flags after the operation. -/
structure AluOut (w : Nat) where
  result : BitVec w
  flags : Flags
  deriving DecidableEq, Repr

/-- `Add_W(a, b, c)` (R120). -/
def addW {w : Nat} (a b : BitVec w) (c : Bool) : Sum w :=
  let t := a.toNat + b.toNat + c.toNat
  let r := BitVec.ofNat w t
  { result := r
    cf := decide (2 ^ w ≤ t)
    of := (a.msb == b.msb) && (r.msb != a.msb)
    af := decide (16 ≤ a.toNat % 16 + b.toNat % 16 + c.toNat) }

/-- `Sub_W(a, b, c)` (R121): CF is the borrow, AF the borrow out of bit 3. -/
def subW {w : Nat} (a b : BitVec w) (c : Bool) : Sum w :=
  let t : Int := (a.toNat : Int) - (b.toNat : Int) - (c.toNat : Int)
  let r := BitVec.ofInt w t
  { result := r
    cf := decide (t < 0)
    of := (a.msb != b.msb) && (r.msb != a.msb)
    af := decide (((a.toNat % 16 : Nat) : Int) - ((b.toNat % 16 : Nat) : Int) - (c.toNat : Int) < 0) }

/-- The number of 1 bits among the low `k` bits. -/
def popcountLow {w : Nat} (x : BitVec w) : Nat → Nat
  | 0 => 0
  | k + 1 => popcountLow x k + (x.getLsbD k).toNat

/-- `parity8`: whether the low 8 bits hold an even number of 1 bits, at either width (R122, D11). -/
def parity8 {w : Nat} (x : BitVec w) : Bool := popcountLow x 8 % 2 == 0

/-- `SetSZP_W(r)`: the flags with ZF, SF and PF from a result, the other three kept (R122). -/
def Flags.setSZP {w : Nat} (f : Flags) (r : BitVec w) : Flags :=
  { f with zf := decide (r = 0), sf := r.msb, pf := parity8 r }

/-- All six flags from a sum or a difference and its result (R123 to R128). -/
def Flags.ofSum {w : Nat} (f : Flags) (o : Sum w) : Flags :=
  { f with cf := o.cf, of := o.of, af := o.af }.setSZP o.result

/-- The flags of INC and DEC: those of the sum or difference, CF kept (R129, R130). -/
def Flags.ofSumKeepCF {w : Nat} (f : Flags) (o : Sum w) : Flags :=
  { f with of := o.of, af := o.af }.setSZP o.result

/-- `Logic_W(r)`: CF and OF cleared, ZF, SF, PF from the result, AF kept (R150, D13). -/
def Flags.ofLogic {w : Nat} (f : Flags) (r : BitVec w) : Flags :=
  { f with cf := false, of := false }.setSZP r

/-! ### The two-operand operations: destination value, source value, flags before -/

/-- ADD (R123). -/
def aluAdd {w : Nat} (a b : BitVec w) (f : Flags) : AluOut w :=
  ⟨(addW a b false).result, f.ofSum (addW a b false)⟩

/-- ADC: the incoming CF is a third addend (R124). -/
def aluAdc {w : Nat} (a b : BitVec w) (f : Flags) : AluOut w :=
  ⟨(addW a b f.cf).result, f.ofSum (addW a b f.cf)⟩

/-- SUB (R125). -/
def aluSub {w : Nat} (a b : BitVec w) (f : Flags) : AluOut w :=
  ⟨(subW a b false).result, f.ofSum (subW a b false)⟩

/-- SBB: the incoming CF is subtracted as well (R126). -/
def aluSbb {w : Nat} (a b : BitVec w) (f : Flags) : AluOut w :=
  ⟨(subW a b f.cf).result, f.ofSum (subW a b f.cf)⟩

/-- AND (R151). -/
def aluAnd {w : Nat} (a b : BitVec w) (f : Flags) : AluOut w := ⟨a &&& b, f.ofLogic (a &&& b)⟩

/-- OR (R152). -/
def aluOr {w : Nat} (a b : BitVec w) (f : Flags) : AluOut w := ⟨a ||| b, f.ofLogic (a ||| b)⟩

/-- XOR (R153). -/
def aluXor {w : Nat} (a b : BitVec w) (f : Flags) : AluOut w := ⟨a ^^^ b, f.ofLogic (a ^^^ b)⟩

/-- The flags of CMP: exactly those of SUB; the result is discarded (R127). -/
def cmpFlags {w : Nat} (a b : BitVec w) (f : Flags) : Flags := f.ofSum (subW a b false)

/-! ### The one-operand operations: operand value, flags before -/

/-- INC: adds 1, CF kept (R129). -/
def aluInc {w : Nat} (x : BitVec w) (f : Flags) : AluOut w :=
  ⟨(addW x (BitVec.ofNat w 1) false).result, f.ofSumKeepCF (addW x (BitVec.ofNat w 1) false)⟩

/-- DEC: subtracts 1, CF kept (R130). -/
def aluDec {w : Nat} (x : BitVec w) (f : Flags) : AluOut w :=
  ⟨(subW x (BitVec.ofNat w 1) false).result, f.ofSumKeepCF (subW x (BitVec.ofNat w 1) false)⟩

/-- NOT: every bit inverted, no flag written (R154). -/
def aluNot {w : Nat} (x : BitVec w) (f : Flags) : AluOut w := ⟨~~~x, f⟩

/-- NEG: `0 - x` with all six flags (R128). -/
def aluNeg {w : Nat} (x : BitVec w) (f : Flags) : AluOut w :=
  ⟨(subW (BitVec.ofNat w 0) x false).result, f.ofSum (subW (BitVec.ofNat w 0) x false)⟩

/-! ### The shifts: operand value, count, flags before -/

/-- The flags of a shift by `n ≥ 1` (R155): CF given, OF written only when `n = 1`, ZF, SF, PF from the
result, AF kept. -/
def Flags.ofShift {w : Nat} (f : Flags) (n : Nat) (cf of : Bool) (r : BitVec w) : Flags :=
  { f with cf := cf, of := if n = 1 then of else f.of }.setSZP r

/-- SHL by `n`, any `n`, not masked; a count of 0 changes nothing (R155, R156). -/
def aluShl {w : Nat} (x : BitVec w) (n : Nat) (f : Flags) : AluOut w :=
  if n = 0 then ⟨x, f⟩
  else
    let r := x <<< n
    let cf := if n ≤ w then x.getLsbD (w - n) else false
    ⟨r, f.ofShift n cf (cf ^^ r.msb) r⟩

/-- SHR by `n`, any `n`, not masked; a count of 0 changes nothing (R155, R157). -/
def aluShr {w : Nat} (x : BitVec w) (n : Nat) (f : Flags) : AluOut w :=
  if n = 0 then ⟨x, f⟩
  else
    let r := x >>> n
    let cf := if n ≤ w then x.getLsbD (n - 1) else false
    ⟨r, f.ofShift n cf x.msb r⟩

/-! ### Multiply -/

/-- The flags of MUL: CF and OF say that the upper half of the product is not zero, the rest kept (R140, D13). -/
def Flags.ofMul {w : Nat} (f : Flags) (upper : BitVec w) : Flags :=
  { f with cf := decide (upper ≠ 0), of := decide (upper ≠ 0) }

end Sys2Proof.Machine
end

