-- ==== Sys2Proof/Machine/Ops.lean ====
section
/-! DEFINITION. The named operations over registers and memory (R10 to R12, R40 to R44), raising a fault
(R204) with the two host operations that leave it (R231, R232: there is no return from a fault, R206), and the
two ways an instruction ends: `State.complete` and `State.branch` (R17, R90 phase P6). -/

namespace Sys2Proof

/-- The word register a byte register is a half of: `n mod 4` (R12). -/
def Reg8.parent : Reg8 → Reg16
  | .al => .ax
  | .cl => .cx
  | .dl => .dx
  | .bl => .bx
  | .ah => .ax
  | .ch => .cx
  | .dh => .dx
  | .bh => .bx

/-- Whether a byte register is the high half: `n div 4` (R12). -/
def Reg8.isHigh : Reg8 → Bool
  | .al => false
  | .cl => false
  | .dl => false
  | .bl => false
  | .ah => true
  | .ch => true
  | .dh => true
  | .bh => true

end Sys2Proof

namespace Sys2Proof.Machine

/-! ### Registers -/

/-- `R16[n]` (R10). -/
def Regs.get (g : Regs) : Reg16 → Word
  | .ax => g.ax
  | .cx => g.cx
  | .dx => g.dx
  | .bx => g.bx
  | .sp => g.sp
  | .bp => g.bp
  | .si => g.si
  | .di => g.di

/-- `R16[n] <- v` (R10). -/
def Regs.set (g : Regs) (r : Reg16) (v : Word) : Regs :=
  match r with
  | .ax => { g with ax := v }
  | .cx => { g with cx := v }
  | .dx => { g with dx := v }
  | .bx => { g with bx := v }
  | .sp => { g with sp := v }
  | .bp => { g with bp := v }
  | .si => { g with si := v }
  | .di => { g with di := v }

/-- `R16[n]` of a state (R10). -/
def State.reg16 (s : State) (r : Reg16) : Word := s.regs.get r

/-- `R16[n] <- v` on a state (R10): both halves change, nothing else does. -/
def State.setReg16 (s : State) (r : Reg16) (v : Word) : State := { s with regs := s.regs.set r v }

/-- `R8[n]`: the low or the high half of the parent word (R12). -/
def State.reg8 (s : State) (r : Reg8) : Byte :=
  if r.isHigh then hiByte (s.reg16 r.parent) else loByte (s.reg16 r.parent)

/-- `R8[n] <- v`: one half of the parent changes, the sibling half keeps its value (R12). -/
def State.setReg8 (s : State) (r : Reg8) (v : Byte) : State :=
  s.setReg16 r.parent
    (if r.isHigh then joinBytes v (loByte (s.reg16 r.parent)) else joinBytes (hiByte (s.reg16 r.parent)) v)

/-- Writes all six flags at once; the flags an instruction does not write are passed on by its ALU function. -/
def State.setFlags (s : State) (f : Flags) : State := { s with flags := f }

/-! ### Memory -/

/-- What a cell that is not listed holds: 0, as at power-on (R29, R42). -/
def Memory.unlisted : Byte := 0

/-- `MEM[a]` (R40). -/
def Memory.read : Memory → Nat → Byte
  | [], _ => Memory.unlisted
  | (k, v) :: m, a => if k = a then v else Memory.read m a

/-- `MEM[a] <- v`, keeping the canonical form: writing what an unlisted cell holds removes the entry. -/
def Memory.write : Memory → Nat → Byte → Memory
  | [], a, v => if v = Memory.unlisted then [] else [(a, v)]
  | (k, u) :: m, a, v =>
    if a < k then
      if v = Memory.unlisted then (k, u) :: m else (a, v) :: (k, u) :: m
    else if a = k then
      if v = Memory.unlisted then m else (a, v) :: m
    else (k, u) :: Memory.write m a v

/-- The canonical form: addresses strictly rising, no entry equal to what an unlisted cell holds (assumption 6). -/
abbrev Memory.wf (m : Memory) : Prop :=
  m.Pairwise (fun c d => c.1 < d.1) ∧ ∀ c ∈ m, c.2 ≠ Memory.unlisted

/-- `MEM[a]` of a state, with no range check: the view statements use. -/
def State.byteAt (s : State) (a : Nat) : Byte := Memory.read s.mem a

/-- `MEM[a] <- v` on a state, with no range check. -/
def State.setByte (s : State) (a : Nat) (v : Byte) : State := { s with mem := Memory.write s.mem a v }

/-- The fault of an access to a cell at or beyond MEM_SIZE (R41, R201). -/
def outOfRange (a : Nat) : FaultRecord := ⟨.addressError, a⟩

/-- `MemRead(addr, 1)` (R43). -/
def State.memRead8 (s : State) (a : Nat) : Except FaultRecord Byte :=
  if a < s.config.memSize then .ok (s.byteAt a) else .error (outOfRange a)

/-- `MemRead(addr, 2)`: little-endian, `a + 1` not reduced, the cells checked in the order a, a + 1 (R43, R45). -/
def State.memRead16 (s : State) (a : Nat) : Except FaultRecord Word :=
  if a < s.config.memSize then
    if a + 1 < s.config.memSize then .ok (joinBytes (s.byteAt (a + 1)) (s.byteAt a))
    else .error (outOfRange (a + 1))
  else .error (outOfRange a)

/-- `MemWrite(addr, 1, v)` (R44). -/
def State.memWrite8 (s : State) (a : Nat) (v : Byte) : Except FaultRecord State :=
  if a < s.config.memSize then .ok (s.setByte a v) else .error (outOfRange a)

/-- `MemWrite(addr, 2, v)`: both checks come before either cell is written (R44). -/
def State.memWrite16 (s : State) (a : Nat) (v : Word) : Except FaultRecord State :=
  if a < s.config.memSize then
    if a + 1 < s.config.memSize then .ok ((s.setByte a (loByte v)).setByte (a + 1) (hiByte v))
    else .error (outOfRange (a + 1))
  else .error (outOfRange a)

/-! ### Faults -/

/-- `raise X(info)`: the whole effect of a fault (R204). FAULT holds the cause and its info, RUN becomes
Faulted, and everything else keeps the value it had before the step. -/
def State.raise (s : State) (f : FaultRecord) : State := { s with fault := some f, run := .faulted }

/-- The host's `Reset` (R231). There is no return from a fault (R206): this operation, `State.loadEntry` and
power-on are the ways out of Faulted and Halted. -/
def State.hostReset (s : State) : State :=
  { s with regs := Regs.zero, flags := Flags.clear, ip := s.entry, run := .ready, fault := none }

/-- The host's `LoadEntry(a)` (R232); `starts`, when the host supplies it, replaces CODE_STARTS, by a set or by
its absence (assumption 3). -/
def State.loadEntry (s : State) (a : Word) (starts : Option (Option (List Word))) : State :=
  { s with
    entry := a
    ip := a
    run := .ready
    fault := none
    config := { s.config with codeStarts := starts.getD s.config.codeStarts } }

/-- The rest of an instruction after an access that may raise: a fault ends the step as `raise` says, from
the state before the step, and nothing of the rest runs (R90, R204). -/
def State.attempt {α : Type} (s : State) (x : Except FaultRecord α) (rest : α → StepOutcome) : StepOutcome :=
  match x with
  | .ok a => rest a
  | .error f => .next (s.raise f)

/-- The numeric code the host sees for a cause (R200). -/
def FaultCause.code : FaultCause → Nat
  | .addressError => 1
  | .invalidAddressError => 2
  | .divideError => 3

/-! ### The end of an instruction -/

/-- Whether a step may run (R91): RUN is Ready or Running. -/
def RunState.canStep : RunState → Bool
  | .ready => true
  | .running => true
  | .halted => false
  | .faulted => false

/-- `next = (IP + len) mod 65536` (R17). -/
def State.nextIp (s : State) (len : Nat) : Word := s.ip + BitVec.ofNat 16 len

/-- Phase P6 of an instruction that is not a taken branch: `IP <- next`, `RUN <- Running` (R90, R17). -/
def State.complete (s : State) (len : Nat) : State := { s with ip := s.nextIp len, run := .running }

/-- Phase P6 of a taken jump or loop: `IP <- target`, `RUN <- Running` (R90, R170). -/
def State.branch (s : State) (target : Word) : State := { s with ip := target, run := .running }

/-- Phase P6 of HLT: `IP <- next`, `RUN <- Halted` (R187). -/
def State.halt (s : State) (len : Nat) : State := { s with ip := s.nextIp len, run := .halted }

end Sys2Proof.Machine
end

