-- ==== Sys2Proof/Machine/Operands.lean ====
section
/-! DEFINITION. The operand resolver (R94 to R98), the target of a jump (R170) and the count of a shift (R155). A
location is an operand that can be written; an operand is a location or an immediate, so no immediate can
be a destination (R94). -/

namespace Sys2Proof.Machine

/-- A byte-wide location: `REG n`, `MEMDIRECT a`, `MEMBASE b` (R94). -/
inductive Loc8 where
  | reg (r : Reg8)
  | direct (a : Word)
  | base (b : Reg16)
  deriving DecidableEq, Repr

/-- A word-wide location (R94). -/
inductive Loc16 where
  | reg (r : Reg16)
  | direct (a : Word)
  | base (b : Reg16)
  deriving DecidableEq, Repr

/-- A byte-wide source operand: a location or `IMM v` (R94). -/
inductive Operand8 where
  | loc (l : Loc8)
  | imm (v : Byte)
  deriving DecidableEq, Repr

/-- A word-wide source operand (R94). -/
inductive Operand16 where
  | loc (l : Loc16)
  | imm (v : Word)
  deriving DecidableEq, Repr

/-- The effective address of `MEMBASE b`: the whole value of the base register, nothing added (R95). -/
def State.baseAddr (s : State) (b : Reg16) : Nat := (s.reg16 b).toNat

/-- The address of `MEMDIRECT a` (R96). -/
def directAddr (a : Word) : Nat := a.toNat

/-- `ReadOp` of a byte-wide location (R98). -/
def State.readLoc8 (s : State) : Loc8 → Except FaultRecord Byte
  | .reg r => .ok (s.reg8 r)
  | .direct a => s.memRead8 (directAddr a)
  | .base b => s.memRead8 (s.baseAddr b)

/-- `ReadOp` of a word-wide location (R98). -/
def State.readLoc16 (s : State) : Loc16 → Except FaultRecord Word
  | .reg r => .ok (s.reg16 r)
  | .direct a => s.memRead16 (directAddr a)
  | .base b => s.memRead16 (s.baseAddr b)

/-- `ReadOp` of a byte-wide operand (R98). -/
def State.readOp8 (s : State) : Operand8 → Except FaultRecord Byte
  | .loc l => s.readLoc8 l
  | .imm v => .ok v

/-- `ReadOp` of a word-wide operand (R98). -/
def State.readOp16 (s : State) : Operand16 → Except FaultRecord Word
  | .loc l => s.readLoc16 l
  | .imm v => .ok v

/-- `WriteOp` of a byte-wide location (R98). -/
def State.writeLoc8 (s : State) (l : Loc8) (v : Byte) : Except FaultRecord State :=
  match l with
  | .reg r => .ok (s.setReg8 r v)
  | .direct a => s.memWrite8 (directAddr a) v
  | .base b => s.memWrite8 (s.baseAddr b) v

/-- `WriteOp` of a word-wide location (R98). -/
def State.writeLoc16 (s : State) (l : Loc16) (v : Word) : Except FaultRecord State :=
  match l with
  | .reg r => .ok (s.setReg16 r v)
  | .direct a => s.memWrite16 (directAddr a) v
  | .base b => s.memWrite16 (s.baseAddr b) v

/-- `sext_16(rel8)` (R74): `rel8` if it is below 128, else `rel8 - 256`, as a 16-bit value. -/
def signExtendRel (rel : Byte) : Word := rel.signExtend 16

/-- The target of a jump: `(IP + 2 + sext_16(rel8)) mod 65536`, IP the address of the jump (R170). -/
def State.jumpTarget (s : State) (rel : Byte) : Word := s.ip + 2 + signExtendRel rel

/-- The count of a shift, 0 to 255, not masked (R155). -/
def State.shiftCount (s : State) : ShiftCount → Nat
  | .one => 1
  | .cl => (s.reg8 .cl).toNat
  | .imm8 n => n.toNat

end Sys2Proof.Machine
end

