-- ==== Sys2Proof/Machine/Template.lean ====
section
/-! DEFINITION. The shared shapes of execution: the two-operand template (R99) with its MOV and CMP
variants, the one-register template of the unary group, the shift template (R155), and the conditional
jump (R170). A meaning in a family file is one of these applied to its operation and operands. -/

namespace Sys2Proof.Machine

/-- R99 at W = 8: read `dst`, read `src`, compute, write `dst`, write the flags, `IP <- next`. -/
def twoOp8 (f : Byte → Byte → Flags → AluOut 8) (dst : Loc8) (src : Operand8) (len : Nat) (s : State) : StepOutcome :=
  s.attempt (s.readLoc8 dst) fun a =>
  s.attempt (s.readOp8 src) fun b =>
  s.attempt (s.writeLoc8 dst (f a b s.flags).result) fun t =>
  .next ((t.setFlags (f a b s.flags).flags).complete len)

/-- R99 at W = 16. -/
def twoOp16 (f : Word → Word → Flags → AluOut 16) (dst : Loc16) (src : Operand16) (len : Nat) (s : State) : StepOutcome :=
  s.attempt (s.readLoc16 dst) fun a =>
  s.attempt (s.readOp16 src) fun b =>
  s.attempt (s.writeLoc16 dst (f a b s.flags).result) fun t =>
  .next ((t.setFlags (f a b s.flags).flags).complete len)

/-- R99 for MOV at W = 8: the destination is not read, no flag is written (R110). -/
def move8 (dst : Loc8) (src : Operand8) (len : Nat) (s : State) : StepOutcome :=
  s.attempt (s.readOp8 src) fun v =>
  s.attempt (s.writeLoc8 dst v) fun t =>
  .next (t.complete len)

/-- R99 for MOV at W = 16 (R110). -/
def move16 (dst : Loc16) (src : Operand16) (len : Nat) (s : State) : StepOutcome :=
  s.attempt (s.readOp16 src) fun v =>
  s.attempt (s.writeLoc16 dst v) fun t =>
  .next (t.complete len)

/-- R99 for CMP at W = 8: both operands are read, the flags are written, the destination is not (R127). -/
def compare8 (dst : Loc8) (src : Operand8) (len : Nat) (s : State) : StepOutcome :=
  s.attempt (s.readLoc8 dst) fun a =>
  s.attempt (s.readOp8 src) fun b =>
  .next ((s.setFlags (cmpFlags a b s.flags)).complete len)

/-- R99 for CMP at W = 16 (R127). -/
def compare16 (dst : Loc16) (src : Operand16) (len : Nat) (s : State) : StepOutcome :=
  s.attempt (s.readLoc16 dst) fun a =>
  s.attempt (s.readOp16 src) fun b =>
  .next ((s.setFlags (cmpFlags a b s.flags)).complete len)

/-- A one-register operation at W = 8 (R70): read, compute, write, write the flags, `IP <- next`. -/
def unaryOp8 (f : Byte → Flags → AluOut 8) (r : Reg8) (s : State) : StepOutcome :=
  .next (((s.setReg8 r (f (s.reg8 r) s.flags).result).setFlags (f (s.reg8 r) s.flags).flags).complete 2)

/-- A one-register operation at W = 16 (R70). -/
def unaryOp16 (f : Word → Flags → AluOut 16) (r : Reg16) (s : State) : StepOutcome :=
  .next (((s.setReg16 r (f (s.reg16 r) s.flags).result).setFlags (f (s.reg16 r) s.flags).flags).complete 2)

/-- A shift at W = 8: the count is read before the operand is written (R155). With a count of 0 the ALU function answers
the operand and the flags it was given, so only IP and RUN change. -/
def shiftOp8 (f : Byte → Nat → Flags → AluOut 8) (r : Reg8) (c : ShiftCount) (len : Nat) (s : State) : StepOutcome :=
  .next (((s.setReg8 r (f (s.reg8 r) (s.shiftCount c) s.flags).result).setFlags
    (f (s.reg8 r) (s.shiftCount c) s.flags).flags).complete len)

/-- A shift at W = 16 (R155). -/
def shiftOp16 (f : Word → Nat → Flags → AluOut 16) (r : Reg16) (c : ShiftCount) (len : Nat) (s : State) : StepOutcome :=
  .next (((s.setReg16 r (f (s.reg16 r) (s.shiftCount c) s.flags).result).setFlags
    (f (s.reg16 r) (s.shiftCount c) s.flags).flags).complete len)

/-- A jump: taken, `IP <- target`; not taken, `IP <- next` (R170). -/
def jumpIf (taken : Bool) (rel : Byte) (s : State) : StepOutcome :=
  if taken then .next (s.branch (s.jumpTarget rel)) else .next (s.complete 2)

end Sys2Proof.Machine
end

