-- ==== Sys2Proof/Machine/AddSub.lean ====
section
/-! DEFINITION. The meanings of ADD, ADC, SUB, SBB, CMP, NEG, INC, DEC, one per row of the opcode table
(42_add_sub.md, R123 to R130). -/

namespace Sys2Proof.Machine

/-- `ADD r8,r8` (R123). -/
def execAddR8R8 (d r : Reg8) (s : State) : StepOutcome :=
  twoOp8 aluAdd (.reg d) (.loc (.reg r)) 2 s

/-- `ADD r16,r16` (R123). -/
def execAddR16R16 (d r : Reg16) (s : State) : StepOutcome :=
  twoOp16 aluAdd (.reg d) (.loc (.reg r)) 2 s

/-- `ADD r8,[base]` (R123). -/
def execAddR8Base (d : Reg8) (b : Reg16) (s : State) : StepOutcome :=
  twoOp8 aluAdd (.reg d) (.loc (.base b)) 2 s

/-- `ADD r16,[base]` (R123). -/
def execAddR16Base (d b : Reg16) (s : State) : StepOutcome :=
  twoOp16 aluAdd (.reg d) (.loc (.base b)) 2 s

/-- `ADD [base],r8` (R123). -/
def execAddBaseR8 (b : Reg16) (r : Reg8) (s : State) : StepOutcome :=
  twoOp8 aluAdd (.base b) (.loc (.reg r)) 2 s

/-- `ADD [base],r16` (R123). -/
def execAddBaseR16 (b r : Reg16) (s : State) : StepOutcome :=
  twoOp16 aluAdd (.base b) (.loc (.reg r)) 2 s

/-- `ADD r8,imm8` (R123). -/
def execAddR8Imm8 (d : Reg8) (imm : Byte) (s : State) : StepOutcome :=
  twoOp8 aluAdd (.reg d) (.imm imm) 3 s

/-- `ADD r16,imm16` (R123). -/
def execAddR16Imm16 (d : Reg16) (imm : Word) (s : State) : StepOutcome :=
  twoOp16 aluAdd (.reg d) (.imm imm) 3 s

/-- `ADC r8,r8` (R124). -/
def execAdcR8R8 (d r : Reg8) (s : State) : StepOutcome :=
  twoOp8 aluAdc (.reg d) (.loc (.reg r)) 2 s

/-- `ADC r16,r16` (R124). -/
def execAdcR16R16 (d r : Reg16) (s : State) : StepOutcome :=
  twoOp16 aluAdc (.reg d) (.loc (.reg r)) 2 s

/-- `ADC r8,[base]` (R124). -/
def execAdcR8Base (d : Reg8) (b : Reg16) (s : State) : StepOutcome :=
  twoOp8 aluAdc (.reg d) (.loc (.base b)) 2 s

/-- `ADC r16,[base]` (R124). -/
def execAdcR16Base (d b : Reg16) (s : State) : StepOutcome :=
  twoOp16 aluAdc (.reg d) (.loc (.base b)) 2 s

/-- `ADC [base],r8` (R124). -/
def execAdcBaseR8 (b : Reg16) (r : Reg8) (s : State) : StepOutcome :=
  twoOp8 aluAdc (.base b) (.loc (.reg r)) 2 s

/-- `ADC [base],r16` (R124). -/
def execAdcBaseR16 (b r : Reg16) (s : State) : StepOutcome :=
  twoOp16 aluAdc (.base b) (.loc (.reg r)) 2 s

/-- `ADC r8,imm8` (R124). -/
def execAdcR8Imm8 (d : Reg8) (imm : Byte) (s : State) : StepOutcome :=
  twoOp8 aluAdc (.reg d) (.imm imm) 3 s

/-- `ADC r16,imm16` (R124). -/
def execAdcR16Imm16 (d : Reg16) (imm : Word) (s : State) : StepOutcome :=
  twoOp16 aluAdc (.reg d) (.imm imm) 3 s

/-- `SUB r8,r8` (R125). -/
def execSubR8R8 (d r : Reg8) (s : State) : StepOutcome :=
  twoOp8 aluSub (.reg d) (.loc (.reg r)) 2 s

/-- `SUB r16,r16` (R125). -/
def execSubR16R16 (d r : Reg16) (s : State) : StepOutcome :=
  twoOp16 aluSub (.reg d) (.loc (.reg r)) 2 s

/-- `SUB r8,[base]` (R125). -/
def execSubR8Base (d : Reg8) (b : Reg16) (s : State) : StepOutcome :=
  twoOp8 aluSub (.reg d) (.loc (.base b)) 2 s

/-- `SUB r16,[base]` (R125). -/
def execSubR16Base (d b : Reg16) (s : State) : StepOutcome :=
  twoOp16 aluSub (.reg d) (.loc (.base b)) 2 s

/-- `SUB [base],r8` (R125). -/
def execSubBaseR8 (b : Reg16) (r : Reg8) (s : State) : StepOutcome :=
  twoOp8 aluSub (.base b) (.loc (.reg r)) 2 s

/-- `SUB [base],r16` (R125). -/
def execSubBaseR16 (b r : Reg16) (s : State) : StepOutcome :=
  twoOp16 aluSub (.base b) (.loc (.reg r)) 2 s

/-- `SUB r8,imm8` (R125). -/
def execSubR8Imm8 (d : Reg8) (imm : Byte) (s : State) : StepOutcome :=
  twoOp8 aluSub (.reg d) (.imm imm) 3 s

/-- `SUB r16,imm16` (R125). -/
def execSubR16Imm16 (d : Reg16) (imm : Word) (s : State) : StepOutcome :=
  twoOp16 aluSub (.reg d) (.imm imm) 3 s

/-- `SBB r8,r8` (R126). -/
def execSbbR8R8 (d r : Reg8) (s : State) : StepOutcome :=
  twoOp8 aluSbb (.reg d) (.loc (.reg r)) 2 s

/-- `SBB r16,r16` (R126). -/
def execSbbR16R16 (d r : Reg16) (s : State) : StepOutcome :=
  twoOp16 aluSbb (.reg d) (.loc (.reg r)) 2 s

/-- `SBB r8,[base]` (R126). -/
def execSbbR8Base (d : Reg8) (b : Reg16) (s : State) : StepOutcome :=
  twoOp8 aluSbb (.reg d) (.loc (.base b)) 2 s

/-- `SBB r16,[base]` (R126). -/
def execSbbR16Base (d b : Reg16) (s : State) : StepOutcome :=
  twoOp16 aluSbb (.reg d) (.loc (.base b)) 2 s

/-- `SBB [base],r8` (R126). -/
def execSbbBaseR8 (b : Reg16) (r : Reg8) (s : State) : StepOutcome :=
  twoOp8 aluSbb (.base b) (.loc (.reg r)) 2 s

/-- `SBB [base],r16` (R126). -/
def execSbbBaseR16 (b r : Reg16) (s : State) : StepOutcome :=
  twoOp16 aluSbb (.base b) (.loc (.reg r)) 2 s

/-- `SBB r8,imm8` (R126). -/
def execSbbR8Imm8 (d : Reg8) (imm : Byte) (s : State) : StepOutcome :=
  twoOp8 aluSbb (.reg d) (.imm imm) 3 s

/-- `SBB r16,imm16` (R126). -/
def execSbbR16Imm16 (d : Reg16) (imm : Word) (s : State) : StepOutcome :=
  twoOp16 aluSbb (.reg d) (.imm imm) 3 s

/-- `CMP r8,r8` (R127). -/
def execCmpR8R8 (d r : Reg8) (s : State) : StepOutcome :=
  compare8 (.reg d) (.loc (.reg r)) 2 s

/-- `CMP r16,r16` (R127). -/
def execCmpR16R16 (d r : Reg16) (s : State) : StepOutcome :=
  compare16 (.reg d) (.loc (.reg r)) 2 s

/-- `CMP r8,[base]` (R127). -/
def execCmpR8Base (d : Reg8) (b : Reg16) (s : State) : StepOutcome :=
  compare8 (.reg d) (.loc (.base b)) 2 s

/-- `CMP r16,[base]` (R127). -/
def execCmpR16Base (d b : Reg16) (s : State) : StepOutcome :=
  compare16 (.reg d) (.loc (.base b)) 2 s

/-- `CMP [base],r8` (R127). -/
def execCmpBaseR8 (b : Reg16) (r : Reg8) (s : State) : StepOutcome :=
  compare8 (.base b) (.loc (.reg r)) 2 s

/-- `CMP [base],r16` (R127). -/
def execCmpBaseR16 (b r : Reg16) (s : State) : StepOutcome :=
  compare16 (.base b) (.loc (.reg r)) 2 s

/-- `CMP r8,imm8` (R127). -/
def execCmpR8Imm8 (d : Reg8) (imm : Byte) (s : State) : StepOutcome :=
  compare8 (.reg d) (.imm imm) 3 s

/-- `CMP r16,imm16` (R127). -/
def execCmpR16Imm16 (d : Reg16) (imm : Word) (s : State) : StepOutcome :=
  compare16 (.reg d) (.imm imm) 3 s

/-- `INC r8` (R129). -/
def execIncR8 (r : Reg8) (s : State) : StepOutcome :=
  unaryOp8 aluInc r s

/-- `INC r16` (R129). -/
def execIncR16 (r : Reg16) (s : State) : StepOutcome :=
  unaryOp16 aluInc r s

/-- `DEC r8` (R130). -/
def execDecR8 (r : Reg8) (s : State) : StepOutcome :=
  unaryOp8 aluDec r s

/-- `DEC r16` (R130). -/
def execDecR16 (r : Reg16) (s : State) : StepOutcome :=
  unaryOp16 aluDec r s

/-- `NEG r8` (R128). -/
def execNegR8 (r : Reg8) (s : State) : StepOutcome :=
  unaryOp8 aluNeg r s

/-- `NEG r16` (R128). -/
def execNegR16 (r : Reg16) (s : State) : StepOutcome :=
  unaryOp16 aluNeg r s

end Sys2Proof.Machine
end

