-- ==== Sys2Proof/Machine/Control.lean ====
section
/-! DEFINITION. The conditions of the fourteen conditional jumps, and the meanings of the jumps, LOOP and HLT
(45_control_transfer.md, R170 to R187). LOOP decrements CX first and tests the new value (R186). -/

namespace Sys2Proof.Machine

/-- The condition of JO: OF = 1 (R172). -/
def condJo (f : Flags) : Bool := f.of

/-- The condition of JNO: OF = 0 (R173). -/
def condJno (f : Flags) : Bool := !f.of

/-- The condition of JB: CF = 1 (R174). -/
def condJb (f : Flags) : Bool := f.cf

/-- The condition of JNB: CF = 0 (R175). -/
def condJnb (f : Flags) : Bool := !f.cf

/-- The condition of JZ: ZF = 1 (R176). -/
def condJz (f : Flags) : Bool := f.zf

/-- The condition of JNZ: ZF = 0 (R177). -/
def condJnz (f : Flags) : Bool := !f.zf

/-- The condition of JBE: CF = 1 or ZF = 1 (R178). -/
def condJbe (f : Flags) : Bool := f.cf || f.zf

/-- The condition of JA: CF = 0 and ZF = 0 (R179). -/
def condJa (f : Flags) : Bool := !f.cf && !f.zf

/-- The condition of JS: SF = 1 (R180). -/
def condJs (f : Flags) : Bool := f.sf

/-- The condition of JNS: SF = 0 (R181). -/
def condJns (f : Flags) : Bool := !f.sf

/-- The condition of JL: SF != OF (R182). -/
def condJl (f : Flags) : Bool := f.sf != f.of

/-- The condition of JGE: SF = OF (R183). -/
def condJge (f : Flags) : Bool := f.sf == f.of

/-- The condition of JLE: ZF = 1 or SF != OF (R184). -/
def condJle (f : Flags) : Bool := f.zf || (f.sf != f.of)

/-- The condition of JG: ZF = 0 and SF = OF (R185). -/
def condJg (f : Flags) : Bool := !f.zf && (f.sf == f.of)

/-- `JO label` (R172). -/
def execJo (rel : Byte) (s : State) : StepOutcome :=
  jumpIf (condJo s.flags) rel s

/-- `JNO label` (R173). -/
def execJno (rel : Byte) (s : State) : StepOutcome :=
  jumpIf (condJno s.flags) rel s

/-- `JB label` (R174). -/
def execJb (rel : Byte) (s : State) : StepOutcome :=
  jumpIf (condJb s.flags) rel s

/-- `JNB label` (R175). -/
def execJnb (rel : Byte) (s : State) : StepOutcome :=
  jumpIf (condJnb s.flags) rel s

/-- `JZ label` (R176). -/
def execJz (rel : Byte) (s : State) : StepOutcome :=
  jumpIf (condJz s.flags) rel s

/-- `JNZ label` (R177). -/
def execJnz (rel : Byte) (s : State) : StepOutcome :=
  jumpIf (condJnz s.flags) rel s

/-- `JBE label` (R178). -/
def execJbe (rel : Byte) (s : State) : StepOutcome :=
  jumpIf (condJbe s.flags) rel s

/-- `JA label` (R179). -/
def execJa (rel : Byte) (s : State) : StepOutcome :=
  jumpIf (condJa s.flags) rel s

/-- `JS label` (R180). -/
def execJs (rel : Byte) (s : State) : StepOutcome :=
  jumpIf (condJs s.flags) rel s

/-- `JNS label` (R181). -/
def execJns (rel : Byte) (s : State) : StepOutcome :=
  jumpIf (condJns s.flags) rel s

/-- `JL label` (R182). -/
def execJl (rel : Byte) (s : State) : StepOutcome :=
  jumpIf (condJl s.flags) rel s

/-- `JGE label` (R183). -/
def execJge (rel : Byte) (s : State) : StepOutcome :=
  jumpIf (condJge s.flags) rel s

/-- `JLE label` (R184). -/
def execJle (rel : Byte) (s : State) : StepOutcome :=
  jumpIf (condJle s.flags) rel s

/-- `JG label` (R185). -/
def execJg (rel : Byte) (s : State) : StepOutcome :=
  jumpIf (condJg s.flags) rel s

/-- `JMP label` (R171). -/
def execJmp (rel : Byte) (s : State) : StepOutcome :=
  jumpIf true rel s

/-- `LOOP label` (R186). -/
def execLoop (rel : Byte) (s : State) : StepOutcome :=
  jumpIf (decide (s.reg16 .cx - 1 ≠ 0)) rel (s.setReg16 .cx (s.reg16 .cx - 1))

/-- `HLT` (R187). -/
def execHlt (s : State) : StepOutcome :=
  .next (s.halt 1)

end Sys2Proof.Machine
end

