-- ==== Sys2Proof/Machine/LogicShift.lean ====
section
/-! DEFINITION. The meanings of AND, OR, XOR, NOT, SHL, SHR, one per row of the opcode table
(44_logic_shift.md, R150 to R157). -/

namespace Sys2Proof.Machine

/-- `AND r8,r8` (R151). -/
def execAndR8R8 (d r : Reg8) (s : State) : StepOutcome :=
  twoOp8 aluAnd (.reg d) (.loc (.reg r)) 2 s

/-- `AND r16,r16` (R151). -/
def execAndR16R16 (d r : Reg16) (s : State) : StepOutcome :=
  twoOp16 aluAnd (.reg d) (.loc (.reg r)) 2 s

/-- `AND r8,[base]` (R151). -/
def execAndR8Base (d : Reg8) (b : Reg16) (s : State) : StepOutcome :=
  twoOp8 aluAnd (.reg d) (.loc (.base b)) 2 s

/-- `AND r16,[base]` (R151). -/
def execAndR16Base (d b : Reg16) (s : State) : StepOutcome :=
  twoOp16 aluAnd (.reg d) (.loc (.base b)) 2 s

/-- `AND [base],r8` (R151). -/
def execAndBaseR8 (b : Reg16) (r : Reg8) (s : State) : StepOutcome :=
  twoOp8 aluAnd (.base b) (.loc (.reg r)) 2 s

/-- `AND [base],r16` (R151). -/
def execAndBaseR16 (b r : Reg16) (s : State) : StepOutcome :=
  twoOp16 aluAnd (.base b) (.loc (.reg r)) 2 s

/-- `AND r8,imm8` (R151). -/
def execAndR8Imm8 (d : Reg8) (imm : Byte) (s : State) : StepOutcome :=
  twoOp8 aluAnd (.reg d) (.imm imm) 3 s

/-- `AND r16,imm16` (R151). -/
def execAndR16Imm16 (d : Reg16) (imm : Word) (s : State) : StepOutcome :=
  twoOp16 aluAnd (.reg d) (.imm imm) 3 s

/-- `OR r8,r8` (R152). -/
def execOrR8R8 (d r : Reg8) (s : State) : StepOutcome :=
  twoOp8 aluOr (.reg d) (.loc (.reg r)) 2 s

/-- `OR r16,r16` (R152). -/
def execOrR16R16 (d r : Reg16) (s : State) : StepOutcome :=
  twoOp16 aluOr (.reg d) (.loc (.reg r)) 2 s

/-- `OR r8,[base]` (R152). -/
def execOrR8Base (d : Reg8) (b : Reg16) (s : State) : StepOutcome :=
  twoOp8 aluOr (.reg d) (.loc (.base b)) 2 s

/-- `OR r16,[base]` (R152). -/
def execOrR16Base (d b : Reg16) (s : State) : StepOutcome :=
  twoOp16 aluOr (.reg d) (.loc (.base b)) 2 s

/-- `OR [base],r8` (R152). -/
def execOrBaseR8 (b : Reg16) (r : Reg8) (s : State) : StepOutcome :=
  twoOp8 aluOr (.base b) (.loc (.reg r)) 2 s

/-- `OR [base],r16` (R152). -/
def execOrBaseR16 (b r : Reg16) (s : State) : StepOutcome :=
  twoOp16 aluOr (.base b) (.loc (.reg r)) 2 s

/-- `OR r8,imm8` (R152). -/
def execOrR8Imm8 (d : Reg8) (imm : Byte) (s : State) : StepOutcome :=
  twoOp8 aluOr (.reg d) (.imm imm) 3 s

/-- `OR r16,imm16` (R152). -/
def execOrR16Imm16 (d : Reg16) (imm : Word) (s : State) : StepOutcome :=
  twoOp16 aluOr (.reg d) (.imm imm) 3 s

/-- `XOR r8,r8` (R153). -/
def execXorR8R8 (d r : Reg8) (s : State) : StepOutcome :=
  twoOp8 aluXor (.reg d) (.loc (.reg r)) 2 s

/-- `XOR r16,r16` (R153). -/
def execXorR16R16 (d r : Reg16) (s : State) : StepOutcome :=
  twoOp16 aluXor (.reg d) (.loc (.reg r)) 2 s

/-- `XOR r8,[base]` (R153). -/
def execXorR8Base (d : Reg8) (b : Reg16) (s : State) : StepOutcome :=
  twoOp8 aluXor (.reg d) (.loc (.base b)) 2 s

/-- `XOR r16,[base]` (R153). -/
def execXorR16Base (d b : Reg16) (s : State) : StepOutcome :=
  twoOp16 aluXor (.reg d) (.loc (.base b)) 2 s

/-- `XOR [base],r8` (R153). -/
def execXorBaseR8 (b : Reg16) (r : Reg8) (s : State) : StepOutcome :=
  twoOp8 aluXor (.base b) (.loc (.reg r)) 2 s

/-- `XOR [base],r16` (R153). -/
def execXorBaseR16 (b r : Reg16) (s : State) : StepOutcome :=
  twoOp16 aluXor (.base b) (.loc (.reg r)) 2 s

/-- `XOR r8,imm8` (R153). -/
def execXorR8Imm8 (d : Reg8) (imm : Byte) (s : State) : StepOutcome :=
  twoOp8 aluXor (.reg d) (.imm imm) 3 s

/-- `XOR r16,imm16` (R153). -/
def execXorR16Imm16 (d : Reg16) (imm : Word) (s : State) : StepOutcome :=
  twoOp16 aluXor (.reg d) (.imm imm) 3 s

/-- `NOT r8` (R154). -/
def execNotR8 (r : Reg8) (s : State) : StepOutcome :=
  unaryOp8 aluNot r s

/-- `NOT r16` (R154). -/
def execNotR16 (r : Reg16) (s : State) : StepOutcome :=
  unaryOp16 aluNot r s

/-- `SHL r8,1` (R156). -/
def execShlR8One (r : Reg8) (s : State) : StepOutcome :=
  shiftOp8 aluShl r .one 2 s

/-- `SHL r8,CL` (R156). -/
def execShlR8Cl (r : Reg8) (s : State) : StepOutcome :=
  shiftOp8 aluShl r .cl 2 s

/-- `SHL r8,imm8` (R156). -/
def execShlR8Imm8 (r : Reg8) (n : Byte) (s : State) : StepOutcome :=
  shiftOp8 aluShl r (.imm8 n) 3 s

/-- `SHL r16,1` (R156). -/
def execShlR16One (r : Reg16) (s : State) : StepOutcome :=
  shiftOp16 aluShl r .one 2 s

/-- `SHL r16,CL` (R156). -/
def execShlR16Cl (r : Reg16) (s : State) : StepOutcome :=
  shiftOp16 aluShl r .cl 2 s

/-- `SHL r16,imm8` (R156). -/
def execShlR16Imm8 (r : Reg16) (n : Byte) (s : State) : StepOutcome :=
  shiftOp16 aluShl r (.imm8 n) 3 s

/-- `SHR r8,1` (R157). -/
def execShrR8One (r : Reg8) (s : State) : StepOutcome :=
  shiftOp8 aluShr r .one 2 s

/-- `SHR r8,CL` (R157). -/
def execShrR8Cl (r : Reg8) (s : State) : StepOutcome :=
  shiftOp8 aluShr r .cl 2 s

/-- `SHR r8,imm8` (R157). -/
def execShrR8Imm8 (r : Reg8) (n : Byte) (s : State) : StepOutcome :=
  shiftOp8 aluShr r (.imm8 n) 3 s

/-- `SHR r16,1` (R157). -/
def execShrR16One (r : Reg16) (s : State) : StepOutcome :=
  shiftOp16 aluShr r .one 2 s

/-- `SHR r16,CL` (R157). -/
def execShrR16Cl (r : Reg16) (s : State) : StepOutcome :=
  shiftOp16 aluShr r .cl 2 s

/-- `SHR r16,imm8` (R157). -/
def execShrR16Imm8 (r : Reg16) (n : Byte) (s : State) : StepOutcome :=
  shiftOp16 aluShr r (.imm8 n) 3 s

end Sys2Proof.Machine
end

