-- ==== Sys2Proof/Machine/Mov.lean ====
section
/-! DEFINITION. The meanings of MOV, one per row of the opcode table (41_mov.md, R110 to R112). -/

namespace Sys2Proof.Machine

/-- `MOV r8,r8` (R110). -/
def execMovR8R8 (d r : Reg8) (s : State) : StepOutcome :=
  move8 (.reg d) (.loc (.reg r)) 2 s

/-- `MOV r16,r16` (R110). -/
def execMovR16R16 (d r : Reg16) (s : State) : StepOutcome :=
  move16 (.reg d) (.loc (.reg r)) 2 s

/-- `MOV r8,[base]` (R110). -/
def execMovR8Base (d : Reg8) (b : Reg16) (s : State) : StepOutcome :=
  move8 (.reg d) (.loc (.base b)) 2 s

/-- `MOV r16,[base]` (R110). -/
def execMovR16Base (d b : Reg16) (s : State) : StepOutcome :=
  move16 (.reg d) (.loc (.base b)) 2 s

/-- `MOV [base],r8` (R110). -/
def execMovBaseR8 (b : Reg16) (r : Reg8) (s : State) : StepOutcome :=
  move8 (.base b) (.loc (.reg r)) 2 s

/-- `MOV [base],r16` (R110). -/
def execMovBaseR16 (b r : Reg16) (s : State) : StepOutcome :=
  move16 (.base b) (.loc (.reg r)) 2 s

/-- `MOV r8,imm8` (R110). -/
def execMovR8Imm8 (d : Reg8) (imm : Byte) (s : State) : StepOutcome :=
  move8 (.reg d) (.imm imm) 3 s

/-- `MOV r16,imm16` (R110). -/
def execMovR16Imm16 (d : Reg16) (imm : Word) (s : State) : StepOutcome :=
  move16 (.reg d) (.imm imm) 3 s

/-- `MOV r8,[addr16]` (R110). -/
def execMovR8Addr (d : Reg8) (a : Word) (s : State) : StepOutcome :=
  move8 (.reg d) (.loc (.direct a)) 3 s

/-- `MOV r16,[addr16]` (R110). -/
def execMovR16Addr (d : Reg16) (a : Word) (s : State) : StepOutcome :=
  move16 (.reg d) (.loc (.direct a)) 3 s

/-- `MOV [addr16],r8` (R110). -/
def execMovAddrR8 (a : Word) (r : Reg8) (s : State) : StepOutcome :=
  move8 (.direct a) (.loc (.reg r)) 3 s

/-- `MOV [addr16],r16` (R110). -/
def execMovAddrR16 (a : Word) (r : Reg16) (s : State) : StepOutcome :=
  move16 (.direct a) (.loc (.reg r)) 3 s

end Sys2Proof.Machine
end

