-- ==== Sys2Proof/Machine/MulDiv.lean ====
section
/-! DEFINITION. Unsigned multiply and divide, and the meanings of MUL and DIV, one per row of the opcode
table (43_mul_div.md, R140, R141). -/

namespace Sys2Proof.Machine

/-- The fault of DIV: DivideError with the address of the DIV (R203, R141). -/
def State.divideFault (s : State) : FaultRecord := ⟨.divideError, s.ip.toNat⟩

/-- MUL at W = 8: `AX <- AL * x`, 8 by 8 to 16 bits; CF and OF from the upper byte (R140). -/
def mulBy8 (x : Byte) (s : State) : State :=
  let p : Word := BitVec.ofNat 16 ((s.reg8 .al).toNat * x.toNat)
  (s.setReg16 .ax p).setFlags (s.flags.ofMul (hiByte p))

/-- MUL at W = 16: `DX:AX <- AX * x`, 16 by 16 to 32 bits; CF and OF from the upper word (R140). -/
def mulBy16 (x : Word) (s : State) : State :=
  let p : BitVec 32 := BitVec.ofNat 32 ((s.reg16 .ax).toNat * x.toNat)
  let upper : Word := p.extractLsb' 16 16
  ((s.setReg16 .ax (p.extractLsb' 0 16)).setReg16 .dx upper).setFlags (s.flags.ofMul upper)

/-- DIV at W = 8: AX by `x`, quotient to AL, remainder to AH; a fault if `x = 0` or the quotient does not fit
in 8 bits, before anything is written (R141). -/
def divBy8 (x : Byte) (s : State) : Except FaultRecord State :=
  let d := (s.reg16 .ax).toNat
  if x = 0 then .error s.divideFault
  else if 256 ≤ d / x.toNat then .error s.divideFault
  else .ok ((s.setReg8 .al (BitVec.ofNat 8 (d / x.toNat))).setReg8 .ah (BitVec.ofNat 8 (d % x.toNat)))

/-- DIV at W = 16: DX:AX by `x`, quotient to AX, remainder to DX; a fault if `x = 0` or the quotient does not
fit in 16 bits, before anything is written (R141). -/
def divBy16 (x : Word) (s : State) : Except FaultRecord State :=
  let d := (s.reg16 .dx).toNat * 65536 + (s.reg16 .ax).toNat
  if x = 0 then .error s.divideFault
  else if 65536 ≤ d / x.toNat then .error s.divideFault
  else .ok ((s.setReg16 .ax (BitVec.ofNat 16 (d / x.toNat))).setReg16 .dx (BitVec.ofNat 16 (d % x.toNat)))

/-- `MUL r8` (R140). -/
def execMulR8 (r : Reg8) (s : State) : StepOutcome :=
  .next ((mulBy8 (s.reg8 r) s).complete 2)

/-- `MUL r16` (R140). -/
def execMulR16 (r : Reg16) (s : State) : StepOutcome :=
  .next ((mulBy16 (s.reg16 r) s).complete 2)

/-- `DIV r8` (R141). -/
def execDivR8 (r : Reg8) (s : State) : StepOutcome :=
  s.attempt (divBy8 (s.reg8 r) s) fun t => .next (t.complete 2)

/-- `DIV r16` (R141). -/
def execDivR16 (r : Reg16) (s : State) : StepOutcome :=
  s.attempt (divBy16 (s.reg16 r) s) fun t => .next (t.complete 2)

end Sys2Proof.Machine
end

