-- ==== Sys2Proof/Machine/Dispatch.lean ====
section
/-! DEFINITION. `exec`: phases P3 to P6 of a step (R90), one arm per constructor of `Instr`. -/

namespace Sys2Proof.Machine

def exec (i : Instr) (s : State) : Host.Outcome State Fault Refusal :=
  match i with
  | .movR8R8 d r => Sys2Proof.Machine.execMovR8R8 d r s
  | .movR16R16 d r => Sys2Proof.Machine.execMovR16R16 d r s
  | .movR8Base d b => Sys2Proof.Machine.execMovR8Base d b s
  | .movR16Base d b => Sys2Proof.Machine.execMovR16Base d b s
  | .movBaseR8 b r => Sys2Proof.Machine.execMovBaseR8 b r s
  | .movBaseR16 b r => Sys2Proof.Machine.execMovBaseR16 b r s
  | .movR8Imm8 d imm => Sys2Proof.Machine.execMovR8Imm8 d imm s
  | .movR16Imm16 d imm => Sys2Proof.Machine.execMovR16Imm16 d imm s
  | .addR8R8 d r => Sys2Proof.Machine.execAddR8R8 d r s
  | .addR16R16 d r => Sys2Proof.Machine.execAddR16R16 d r s
  | .addR8Base d b => Sys2Proof.Machine.execAddR8Base d b s
  | .addR16Base d b => Sys2Proof.Machine.execAddR16Base d b s
  | .addBaseR8 b r => Sys2Proof.Machine.execAddBaseR8 b r s
  | .addBaseR16 b r => Sys2Proof.Machine.execAddBaseR16 b r s
  | .addR8Imm8 d imm => Sys2Proof.Machine.execAddR8Imm8 d imm s
  | .addR16Imm16 d imm => Sys2Proof.Machine.execAddR16Imm16 d imm s
  | .adcR8R8 d r => Sys2Proof.Machine.execAdcR8R8 d r s
  | .adcR16R16 d r => Sys2Proof.Machine.execAdcR16R16 d r s
  | .adcR8Base d b => Sys2Proof.Machine.execAdcR8Base d b s
  | .adcR16Base d b => Sys2Proof.Machine.execAdcR16Base d b s
  | .adcBaseR8 b r => Sys2Proof.Machine.execAdcBaseR8 b r s
  | .adcBaseR16 b r => Sys2Proof.Machine.execAdcBaseR16 b r s
  | .adcR8Imm8 d imm => Sys2Proof.Machine.execAdcR8Imm8 d imm s
  | .adcR16Imm16 d imm => Sys2Proof.Machine.execAdcR16Imm16 d imm s
  | .subR8R8 d r => Sys2Proof.Machine.execSubR8R8 d r s
  | .subR16R16 d r => Sys2Proof.Machine.execSubR16R16 d r s
  | .subR8Base d b => Sys2Proof.Machine.execSubR8Base d b s
  | .subR16Base d b => Sys2Proof.Machine.execSubR16Base d b s
  | .subBaseR8 b r => Sys2Proof.Machine.execSubBaseR8 b r s
  | .subBaseR16 b r => Sys2Proof.Machine.execSubBaseR16 b r s
  | .subR8Imm8 d imm => Sys2Proof.Machine.execSubR8Imm8 d imm s
  | .subR16Imm16 d imm => Sys2Proof.Machine.execSubR16Imm16 d imm s
  | .sbbR8R8 d r => Sys2Proof.Machine.execSbbR8R8 d r s
  | .sbbR16R16 d r => Sys2Proof.Machine.execSbbR16R16 d r s
  | .sbbR8Base d b => Sys2Proof.Machine.execSbbR8Base d b s
  | .sbbR16Base d b => Sys2Proof.Machine.execSbbR16Base d b s
  | .sbbBaseR8 b r => Sys2Proof.Machine.execSbbBaseR8 b r s
  | .sbbBaseR16 b r => Sys2Proof.Machine.execSbbBaseR16 b r s
  | .sbbR8Imm8 d imm => Sys2Proof.Machine.execSbbR8Imm8 d imm s
  | .sbbR16Imm16 d imm => Sys2Proof.Machine.execSbbR16Imm16 d imm s
  | .andR8R8 d r => Sys2Proof.Machine.execAndR8R8 d r s
  | .andR16R16 d r => Sys2Proof.Machine.execAndR16R16 d r s
  | .andR8Base d b => Sys2Proof.Machine.execAndR8Base d b s
  | .andR16Base d b => Sys2Proof.Machine.execAndR16Base d b s
  | .andBaseR8 b r => Sys2Proof.Machine.execAndBaseR8 b r s
  | .andBaseR16 b r => Sys2Proof.Machine.execAndBaseR16 b r s
  | .andR8Imm8 d imm => Sys2Proof.Machine.execAndR8Imm8 d imm s
  | .andR16Imm16 d imm => Sys2Proof.Machine.execAndR16Imm16 d imm s
  | .orR8R8 d r => Sys2Proof.Machine.execOrR8R8 d r s
  | .orR16R16 d r => Sys2Proof.Machine.execOrR16R16 d r s
  | .orR8Base d b => Sys2Proof.Machine.execOrR8Base d b s
  | .orR16Base d b => Sys2Proof.Machine.execOrR16Base d b s
  | .orBaseR8 b r => Sys2Proof.Machine.execOrBaseR8 b r s
  | .orBaseR16 b r => Sys2Proof.Machine.execOrBaseR16 b r s
  | .orR8Imm8 d imm => Sys2Proof.Machine.execOrR8Imm8 d imm s
  | .orR16Imm16 d imm => Sys2Proof.Machine.execOrR16Imm16 d imm s
  | .xorR8R8 d r => Sys2Proof.Machine.execXorR8R8 d r s
  | .xorR16R16 d r => Sys2Proof.Machine.execXorR16R16 d r s
  | .xorR8Base d b => Sys2Proof.Machine.execXorR8Base d b s
  | .xorR16Base d b => Sys2Proof.Machine.execXorR16Base d b s
  | .xorBaseR8 b r => Sys2Proof.Machine.execXorBaseR8 b r s
  | .xorBaseR16 b r => Sys2Proof.Machine.execXorBaseR16 b r s
  | .xorR8Imm8 d imm => Sys2Proof.Machine.execXorR8Imm8 d imm s
  | .xorR16Imm16 d imm => Sys2Proof.Machine.execXorR16Imm16 d imm s
  | .cmpR8R8 d r => Sys2Proof.Machine.execCmpR8R8 d r s
  | .cmpR16R16 d r => Sys2Proof.Machine.execCmpR16R16 d r s
  | .cmpR8Base d b => Sys2Proof.Machine.execCmpR8Base d b s
  | .cmpR16Base d b => Sys2Proof.Machine.execCmpR16Base d b s
  | .cmpBaseR8 b r => Sys2Proof.Machine.execCmpBaseR8 b r s
  | .cmpBaseR16 b r => Sys2Proof.Machine.execCmpBaseR16 b r s
  | .cmpR8Imm8 d imm => Sys2Proof.Machine.execCmpR8Imm8 d imm s
  | .cmpR16Imm16 d imm => Sys2Proof.Machine.execCmpR16Imm16 d imm s
  | .movR8Addr d a => Sys2Proof.Machine.execMovR8Addr d a s
  | .movR16Addr d a => Sys2Proof.Machine.execMovR16Addr d a s
  | .movAddrR8 a r => Sys2Proof.Machine.execMovAddrR8 a r s
  | .movAddrR16 a r => Sys2Proof.Machine.execMovAddrR16 a r s
  | .incR8 r => Sys2Proof.Machine.execIncR8 r s
  | .incR16 r => Sys2Proof.Machine.execIncR16 r s
  | .decR8 r => Sys2Proof.Machine.execDecR8 r s
  | .decR16 r => Sys2Proof.Machine.execDecR16 r s
  | .notR8 r => Sys2Proof.Machine.execNotR8 r s
  | .notR16 r => Sys2Proof.Machine.execNotR16 r s
  | .negR8 r => Sys2Proof.Machine.execNegR8 r s
  | .negR16 r => Sys2Proof.Machine.execNegR16 r s
  | .mulR8 r => Sys2Proof.Machine.execMulR8 r s
  | .mulR16 r => Sys2Proof.Machine.execMulR16 r s
  | .divR8 r => Sys2Proof.Machine.execDivR8 r s
  | .divR16 r => Sys2Proof.Machine.execDivR16 r s
  | .shlR8One r => Sys2Proof.Machine.execShlR8One r s
  | .shlR8Cl r => Sys2Proof.Machine.execShlR8Cl r s
  | .shlR8Imm8 r n => Sys2Proof.Machine.execShlR8Imm8 r n s
  | .shlR16One r => Sys2Proof.Machine.execShlR16One r s
  | .shlR16Cl r => Sys2Proof.Machine.execShlR16Cl r s
  | .shlR16Imm8 r n => Sys2Proof.Machine.execShlR16Imm8 r n s
  | .shrR8One r => Sys2Proof.Machine.execShrR8One r s
  | .shrR8Cl r => Sys2Proof.Machine.execShrR8Cl r s
  | .shrR8Imm8 r n => Sys2Proof.Machine.execShrR8Imm8 r n s
  | .shrR16One r => Sys2Proof.Machine.execShrR16One r s
  | .shrR16Cl r => Sys2Proof.Machine.execShrR16Cl r s
  | .shrR16Imm8 r n => Sys2Proof.Machine.execShrR16Imm8 r n s
  | .jo rel => Sys2Proof.Machine.execJo rel s
  | .jno rel => Sys2Proof.Machine.execJno rel s
  | .jb rel => Sys2Proof.Machine.execJb rel s
  | .jnb rel => Sys2Proof.Machine.execJnb rel s
  | .jz rel => Sys2Proof.Machine.execJz rel s
  | .jnz rel => Sys2Proof.Machine.execJnz rel s
  | .jbe rel => Sys2Proof.Machine.execJbe rel s
  | .ja rel => Sys2Proof.Machine.execJa rel s
  | .js rel => Sys2Proof.Machine.execJs rel s
  | .jns rel => Sys2Proof.Machine.execJns rel s
  | .jl rel => Sys2Proof.Machine.execJl rel s
  | .jge rel => Sys2Proof.Machine.execJge rel s
  | .jle rel => Sys2Proof.Machine.execJle rel s
  | .jg rel => Sys2Proof.Machine.execJg rel s
  | .jmp rel => Sys2Proof.Machine.execJmp rel s
  | .loop rel => Sys2Proof.Machine.execLoop rel s
  | .hlt => Sys2Proof.Machine.execHlt s

end Sys2Proof.Machine
end

