-- ==== Sys2Proof/Machine/Fetch.lean ====
section
/-! DEFINITION. Phases P0 to P2 of a step (R90): the CODE_STARTS check, and the fetch of the instruction's
bytes one at a time, each only when the decoder asks for it (R78, R92, R205 checks 1 to 6); and the storing of
bytes where the next fetch reads them, which `State.withFetchWord` uses. -/

namespace Sys2Proof.Machine

/-- `InvalidAddressError(IP)` (R202). -/
def State.invalidAddress (s : State) : FaultRecord := ⟨.invalidAddressError, s.ip.toNat⟩

/-- P0: an instruction may start at IP, because CODE_STARTS is absent or holds IP (R93). -/
def State.startAllowed (s : State) : Bool :=
  match s.config.codeStarts with
  | none => true
  | some starts => decide (s.ip ∈ starts)

/-- P1 and P2 with `bytes` already fetched and at most `n` more to come: fetch the byte at
`IP + bytes.length`, not reduced modulo 65536 (R46, R92), and decode. No instruction is longer than 3
bytes (R61), so with `n = 3` and no bytes the first case is never reached. -/
def fetchFrom (s : State) : Nat → List Byte → Except FaultRecord Instr
  | 0, _ => .error s.invalidAddress
  | n + 1, bytes =>
    match s.memRead8 (s.ip.toNat + bytes.length) with
    | .error f => .error f
    | .ok b =>
      match decode (bytes ++ [b]) with
      | .done i => .ok i
      | .reserved _ => .error s.invalidAddress
      | .more => fetchFrom s n (bytes ++ [b])

/-- P0 to P2: the instruction at IP, or the fault its fetch raises. -/
def fetch (s : State) : Except FaultRecord Instr :=
  if s.startAllowed then fetchFrom s 3 [] else .error s.invalidAddress

/-- Stores bytes from address `a` up, as far as there are cells. -/
def State.placeBytes (s : State) (a : Nat) : List Byte → State
  | [] => s
  | b :: rest => (if a < s.config.memSize then s.setByte a b else s).placeBytes (a + 1) rest

/-- Lets an instruction start at IP: adds IP to CODE_STARTS when the set is present and lacks it. -/
def State.allowStart (s : State) : State :=
  match s.config.codeStarts with
  | none => s
  | some starts =>
    if s.ip ∈ starts then s else { s with config := { s.config with codeStarts := some (s.ip :: starts) } }

/-- Makes a stopped core ready to step; a core that can step is left as it is. -/
def State.wake (s : State) : State :=
  if s.run.canStep then s else { s with run := .ready, fault := none }

end Sys2Proof.Machine
end

