-- ==== Sys2Proof/Machine/Step.lean ====
section
/-! DEFINITION. One `Step` of the core (R90, R91), and `State.withFetchWord`, which places an instruction where
the next step fetches. -/

namespace Sys2Proof.Machine

/-- One `Step` (R90): refused when RUN is Halted or Faulted (R91); else fetch and decode at IP, and execute. A
fault of the fetch has the effect of R204, like every other. -/
def step (s : State) : Host.Outcome State Fault Refusal :=
  match s.run with
  | .halted => .refused .coreHalted
  | .faulted => .refused .coreFaulted
  | .ready => s.attempt (fetch s) fun i => exec i s
  | .running => s.attempt (fetch s) fun i => exec i s

/-- `s` with the instruction of a table word (Decode.lean, `tableBytes`) stored at IP, where `step` fetches
it; RUN and CODE_STARTS are changed only where they would keep the next step from fetching it. Bytes at or
beyond MEM_SIZE have no cell and are not stored (assumption 4). -/
def State.withFetchWord (s : State) (nbits w : Nat) : State :=
  (s.wake.allowStart).placeBytes s.ip.toNat (tableBytes nbits w)

end Sys2Proof.Machine
end

