-- ==== Sys2Proof/Machine/HostOps.lean ====
section
/-! DEFINITION. The host operations (70_reset_and_hazards.md, R234 to R241): Step, Run, ReadRegisters, ReadMemory,
WriteMemory, ClearMemory. Power-on is `State.powerOn`; Reset and LoadEntry stand beside `State.raise` in Ops.lean.
Each acts only between two steps (R2). -/

namespace Sys2Proof.Machine

/-- The step descriptor reported to the host (R103): the address executed, the instruction (in place of its
text; none when the fetch faulted), the halted flag, and the fault if the step raised one (R235). -/
structure StepDescriptor where
  address : Word
  instr : Option Instr
  halted : Bool
  error : Option FaultRecord
  deriving DecidableEq, Repr

/-- What `Step` reports (R235): a descriptor and the state after, or a refusal and the unchanged state (R91). -/
inductive StepReport where
  | done (d : StepDescriptor) (t : State)
  | refused (why : Refusal) (t : State)
  deriving DecidableEq, Repr

/-- The instruction the fetch at IP gives, for the descriptor. -/
def State.instrAtIp (s : State) : Option Instr :=
  match fetch s with
  | .ok i => some i
  | .error _ => none

/-- The descriptor of a step from `s` to `t` (R103, R235). -/
def stepDescriptor (s t : State) : StepDescriptor where
  address := s.ip
  instr := s.instrAtIp
  halted := decide (t.run = .halted)
  error := if t.run = .faulted then t.fault else none

/-- The host's `Step` (R235). -/
def State.hostStep (s : State) : StepReport :=
  match step s with
  | .next t => .done (stepDescriptor s t) t
  | .fault f => nomatch f
  | .refused r => .refused r s

/-- What `Run` reports (R236): the number of steps, the trace, the two result flags and FAULT, with the state
after the run. -/
structure RunReport where
  n : Nat
  trace : List StepDescriptor
  haltedNormally : Bool
  budgetExhausted : Bool
  fault : Option FaultRecord
  final : State
  deriving DecidableEq, Repr

/-- The report of a run that performs no further step from `s` (R236). -/
def RunReport.stopAt (s : State) : RunReport where
  n := 0
  trace := []
  haltedNormally := decide (s.run = .halted)
  budgetExhausted := s.run.canStep
  fault := s.fault
  final := s

/-- The report with one step more in front (R236). -/
def RunReport.after (d : StepDescriptor) (r : RunReport) : RunReport :=
  { r with n := r.n + 1, trace := d :: r.trace }

/-- The host's `Run(maxSteps)` (R236): steps until the core stops or the budget is used; a faulting step counts. -/
def State.hostRun : Nat → State → RunReport
  | 0, s => .stopAt s
  | k + 1, s =>
    match step s with
    | .next t => (State.hostRun k t).after (stepDescriptor s t)
    | .fault f => nomatch f
    | .refused _ => .stopAt s

/-- What `ReadRegisters` returns (R238). -/
structure RegisterView where
  regs : Regs
  ip : Word
  flags : Flags
  run : RunState
  fault : Option FaultRecord
  entry : Word
  deriving DecidableEq, Repr

/-- The host's `ReadRegisters`: changes nothing (R238). -/
def State.readRegisters (s : State) : RegisterView := ⟨s.regs, s.ip, s.flags, s.run, s.fault, s.entry⟩

/-- The error of a host range access (R239, R240): AddressError naming the first address of the range that
is at or beyond MEM_SIZE, told to the host only (assumption 5). -/
def State.rangeError (s : State) (a : Nat) : FaultRecord := outOfRange (max a s.config.memSize)

/-- The host's `ReadMemory(a, count)` (R239): the bytes in ascending order, or an error and no bytes. -/
def State.readMemory (s : State) (a count : Nat) : Except FaultRecord (List Byte) :=
  if a + count ≤ s.config.memSize then .ok ((List.range count).map fun i => s.byteAt (a + i))
  else .error (s.rangeError a)

/-- The host's `WriteMemory(a, bytes)` (R240): the whole range is checked first, then `bytes[i]` goes to `a + i`. -/
def State.writeMemory (s : State) (a : Nat) (bytes : List Byte) : Except FaultRecord State :=
  if a + bytes.length ≤ s.config.memSize then .ok (s.placeBytes a bytes) else .error (s.rangeError a)

/-- The host's `ClearMemory` (R241): every cell 0, nothing else changes. -/
def State.clearMemory (s : State) : State := { s with mem := [] }

end Sys2Proof.Machine
end

