-- ==== Sys2Proof/Safety.lean ====
section
/-! DEFINITION. The terms the statements are written in: the invariant of the machine, the shape of an
instruction (`View`, one per operand form, with the row it is), what each shape may change (R14, R20, R48), its
memory operand, and the results and flags of R120, R121, R122, R150 written over natural numbers and integers, as the
rules write them, independently of Flags.lean. -/

namespace Sys2Proof.Machine

/-! ### The invariant -/

/-- What every reachable state satisfies: memory is in canonical form (assumption 6) and lists no cell that does not
exist (R40), FAULT holds a fault exactly when RUN = Faulted (R23), the parameters are legal (`Config.wf`: R3, and
assumption 3 for CODE_STARTS). -/
abbrev State.wf (s : State) : Prop :=
  Memory.wf s.mem ∧ (∀ c ∈ s.mem, c.1 < s.config.memSize) ∧ (s.fault.isSome = true ↔ s.run = .faulted) ∧ s.config.wf

/-! ### Shapes of instructions -/

/-- The operand forms of the core (R84), with the operation. -/
inductive View where
  | two8 (op : TwoOp) (f : Form8)
  | two16 (op : TwoOp) (f : Form16)
  | load8 (d : Reg8) (a : Word)
  | load16 (d : Reg16) (a : Word)
  | store8 (a : Word) (r : Reg8)
  | store16 (a : Word) (r : Reg16)
  | unary8 (op : UnaryOp) (r : Reg8)
  | unary16 (op : UnaryOp) (r : Reg16)
  | shift8 (op : ShiftOp) (r : Reg8) (c : ShiftCount)
  | shift16 (op : ShiftOp) (r : Reg16) (c : ShiftCount)
  | jump (op : JumpOp) (rel : Byte)
  | hlt
  deriving DecidableEq, Repr

/-- The row of the opcode table a shape is. -/
def View.instr : View → Instr
  | .two8 op f => .two8 op f
  | .two16 op f => .two16 op f
  | .load8 d a => .movR8Addr d a
  | .load16 d a => .movR16Addr d a
  | .store8 a r => .movAddrR8 a r
  | .store16 a r => .movAddrR16 a r
  | .unary8 op r => .unary8 op r
  | .unary16 op r => .unary16 op r
  | .shift8 op r c => .shift8 op r c
  | .shift16 op r c => .shift16 op r c
  | .jump op rel => .jump op rel
  | .hlt => .hlt

end Sys2Proof.Machine

namespace Sys2Proof

open Machine

/-- The shape of an instruction. -/
def Instr.view : Instr → View
  | .movR8R8 d r => .two8 .mov (.regReg d r)
  | .movR16R16 d r => .two16 .mov (.regReg d r)
  | .movR8Base d b => .two8 .mov (.regMem d b)
  | .movR16Base d b => .two16 .mov (.regMem d b)
  | .movBaseR8 b r => .two8 .mov (.memReg b r)
  | .movBaseR16 b r => .two16 .mov (.memReg b r)
  | .movR8Imm8 d imm => .two8 .mov (.regImm d imm)
  | .movR16Imm16 d imm => .two16 .mov (.regImm d imm)
  | .addR8R8 d r => .two8 .add (.regReg d r)
  | .addR16R16 d r => .two16 .add (.regReg d r)
  | .addR8Base d b => .two8 .add (.regMem d b)
  | .addR16Base d b => .two16 .add (.regMem d b)
  | .addBaseR8 b r => .two8 .add (.memReg b r)
  | .addBaseR16 b r => .two16 .add (.memReg b r)
  | .addR8Imm8 d imm => .two8 .add (.regImm d imm)
  | .addR16Imm16 d imm => .two16 .add (.regImm d imm)
  | .adcR8R8 d r => .two8 .adc (.regReg d r)
  | .adcR16R16 d r => .two16 .adc (.regReg d r)
  | .adcR8Base d b => .two8 .adc (.regMem d b)
  | .adcR16Base d b => .two16 .adc (.regMem d b)
  | .adcBaseR8 b r => .two8 .adc (.memReg b r)
  | .adcBaseR16 b r => .two16 .adc (.memReg b r)
  | .adcR8Imm8 d imm => .two8 .adc (.regImm d imm)
  | .adcR16Imm16 d imm => .two16 .adc (.regImm d imm)
  | .subR8R8 d r => .two8 .sub (.regReg d r)
  | .subR16R16 d r => .two16 .sub (.regReg d r)
  | .subR8Base d b => .two8 .sub (.regMem d b)
  | .subR16Base d b => .two16 .sub (.regMem d b)
  | .subBaseR8 b r => .two8 .sub (.memReg b r)
  | .subBaseR16 b r => .two16 .sub (.memReg b r)
  | .subR8Imm8 d imm => .two8 .sub (.regImm d imm)
  | .subR16Imm16 d imm => .two16 .sub (.regImm d imm)
  | .sbbR8R8 d r => .two8 .sbb (.regReg d r)
  | .sbbR16R16 d r => .two16 .sbb (.regReg d r)
  | .sbbR8Base d b => .two8 .sbb (.regMem d b)
  | .sbbR16Base d b => .two16 .sbb (.regMem d b)
  | .sbbBaseR8 b r => .two8 .sbb (.memReg b r)
  | .sbbBaseR16 b r => .two16 .sbb (.memReg b r)
  | .sbbR8Imm8 d imm => .two8 .sbb (.regImm d imm)
  | .sbbR16Imm16 d imm => .two16 .sbb (.regImm d imm)
  | .andR8R8 d r => .two8 .and (.regReg d r)
  | .andR16R16 d r => .two16 .and (.regReg d r)
  | .andR8Base d b => .two8 .and (.regMem d b)
  | .andR16Base d b => .two16 .and (.regMem d b)
  | .andBaseR8 b r => .two8 .and (.memReg b r)
  | .andBaseR16 b r => .two16 .and (.memReg b r)
  | .andR8Imm8 d imm => .two8 .and (.regImm d imm)
  | .andR16Imm16 d imm => .two16 .and (.regImm d imm)
  | .orR8R8 d r => .two8 .or (.regReg d r)
  | .orR16R16 d r => .two16 .or (.regReg d r)
  | .orR8Base d b => .two8 .or (.regMem d b)
  | .orR16Base d b => .two16 .or (.regMem d b)
  | .orBaseR8 b r => .two8 .or (.memReg b r)
  | .orBaseR16 b r => .two16 .or (.memReg b r)
  | .orR8Imm8 d imm => .two8 .or (.regImm d imm)
  | .orR16Imm16 d imm => .two16 .or (.regImm d imm)
  | .xorR8R8 d r => .two8 .xor (.regReg d r)
  | .xorR16R16 d r => .two16 .xor (.regReg d r)
  | .xorR8Base d b => .two8 .xor (.regMem d b)
  | .xorR16Base d b => .two16 .xor (.regMem d b)
  | .xorBaseR8 b r => .two8 .xor (.memReg b r)
  | .xorBaseR16 b r => .two16 .xor (.memReg b r)
  | .xorR8Imm8 d imm => .two8 .xor (.regImm d imm)
  | .xorR16Imm16 d imm => .two16 .xor (.regImm d imm)
  | .cmpR8R8 d r => .two8 .cmp (.regReg d r)
  | .cmpR16R16 d r => .two16 .cmp (.regReg d r)
  | .cmpR8Base d b => .two8 .cmp (.regMem d b)
  | .cmpR16Base d b => .two16 .cmp (.regMem d b)
  | .cmpBaseR8 b r => .two8 .cmp (.memReg b r)
  | .cmpBaseR16 b r => .two16 .cmp (.memReg b r)
  | .cmpR8Imm8 d imm => .two8 .cmp (.regImm d imm)
  | .cmpR16Imm16 d imm => .two16 .cmp (.regImm d imm)
  | .movR8Addr d a => .load8 d a
  | .movR16Addr d a => .load16 d a
  | .movAddrR8 a r => .store8 a r
  | .movAddrR16 a r => .store16 a r
  | .incR8 r => .unary8 .inc r
  | .incR16 r => .unary16 .inc r
  | .decR8 r => .unary8 .dec r
  | .decR16 r => .unary16 .dec r
  | .notR8 r => .unary8 .not r
  | .notR16 r => .unary16 .not r
  | .negR8 r => .unary8 .neg r
  | .negR16 r => .unary16 .neg r
  | .mulR8 r => .unary8 .mul r
  | .mulR16 r => .unary16 .mul r
  | .divR8 r => .unary8 .div r
  | .divR16 r => .unary16 .div r
  | .shlR8One r => .shift8 .shl r .one
  | .shlR8Cl r => .shift8 .shl r .cl
  | .shlR8Imm8 r n => .shift8 .shl r (.imm8 n)
  | .shlR16One r => .shift16 .shl r .one
  | .shlR16Cl r => .shift16 .shl r .cl
  | .shlR16Imm8 r n => .shift16 .shl r (.imm8 n)
  | .shrR8One r => .shift8 .shr r .one
  | .shrR8Cl r => .shift8 .shr r .cl
  | .shrR8Imm8 r n => .shift8 .shr r (.imm8 n)
  | .shrR16One r => .shift16 .shr r .one
  | .shrR16Cl r => .shift16 .shr r .cl
  | .shrR16Imm8 r n => .shift16 .shr r (.imm8 n)
  | .jo rel => .jump .jo rel
  | .jno rel => .jump .jno rel
  | .jb rel => .jump .jb rel
  | .jnb rel => .jump .jnb rel
  | .jz rel => .jump .jz rel
  | .jnz rel => .jump .jnz rel
  | .jbe rel => .jump .jbe rel
  | .ja rel => .jump .ja rel
  | .js rel => .jump .js rel
  | .jns rel => .jump .jns rel
  | .jl rel => .jump .jl rel
  | .jge rel => .jump .jge rel
  | .jle rel => .jump .jle rel
  | .jg rel => .jump .jg rel
  | .jmp rel => .jump .jmp rel
  | .loop rel => .jump .loop rel
  | .hlt => .hlt

end Sys2Proof

namespace Sys2Proof.Machine

/-! ### Operands as values -/

/-- The destination of a two-operand form (R67, R68). -/
def dst8 : Form8 → Loc8
  | .regReg d _ => .reg d
  | .regMem d _ => .reg d
  | .memReg b _ => .base b
  | .regImm d _ => .reg d

/-- The source of a two-operand form (R67, R68). -/
def src8 : Form8 → Operand8
  | .regReg _ r => .loc (.reg r)
  | .regMem _ b => .loc (.base b)
  | .memReg _ r => .loc (.reg r)
  | .regImm _ imm => .imm imm

/-- The length of a two-operand form: 3 with an immediate, else 2 (R62). -/
def formLength8 : Form8 → Nat
  | .regReg _ _ => 2
  | .regMem _ _ => 2
  | .memReg _ _ => 2
  | .regImm _ _ => 3

/-- The address of a location in memory; none for a register (R95, R96). -/
def State.locAddr8 (s : State) : Loc8 → Option Nat
  | .reg _ => none
  | .direct a => some (directAddr a)
  | .base b => some (s.baseAddr b)

/-- The address of an operand in memory; none for a register or an immediate. -/
def State.opAddr8 (s : State) : Operand8 → Option Nat
  | .loc l => s.locAddr8 l
  | .imm _ => none

/-- The value a location holds, where its cells exist. -/
def State.locValue8 (s : State) : Loc8 → Byte
  | .reg r => s.reg8 r
  | .direct a => s.byteAt (directAddr a)
  | .base b => s.byteAt (s.baseAddr b)

/-- The value of an operand, where its cells exist. -/
def State.opValue8 (s : State) : Operand8 → Byte
  | .loc l => s.locValue8 l
  | .imm v => v

/-- The state with a value put in a location, where its cells exist. -/
def State.putLoc8 (s : State) (l : Loc8) (v : Byte) : State :=
  match l with
  | .reg r => s.setReg8 r v
  | .direct a => s.setByte (directAddr a) v
  | .base b => s.setByte (s.baseAddr b) v

/-- The destination of a two-operand form (R67, R68). -/
def dst16 : Form16 → Loc16
  | .regReg d _ => .reg d
  | .regMem d _ => .reg d
  | .memReg b _ => .base b
  | .regImm d _ => .reg d

/-- The source of a two-operand form (R67, R68). -/
def src16 : Form16 → Operand16
  | .regReg _ r => .loc (.reg r)
  | .regMem _ b => .loc (.base b)
  | .memReg _ r => .loc (.reg r)
  | .regImm _ imm => .imm imm

/-- The length of a two-operand form: 3 with an immediate, else 2 (R62). -/
def formLength16 : Form16 → Nat
  | .regReg _ _ => 2
  | .regMem _ _ => 2
  | .memReg _ _ => 2
  | .regImm _ _ => 3

/-- The address of a location in memory; none for a register (R95, R96). -/
def State.locAddr16 (s : State) : Loc16 → Option Nat
  | .reg _ => none
  | .direct a => some (directAddr a)
  | .base b => some (s.baseAddr b)

/-- The address of an operand in memory; none for a register or an immediate. -/
def State.opAddr16 (s : State) : Operand16 → Option Nat
  | .loc l => s.locAddr16 l
  | .imm _ => none

/-- The value a location holds, where its cells exist (R45: little-endian). -/
def State.locValue16 (s : State) : Loc16 → Word
  | .reg r => s.reg16 r
  | .direct a => joinBytes (s.byteAt (directAddr a + 1)) (s.byteAt (directAddr a))
  | .base b => joinBytes (s.byteAt (s.baseAddr b + 1)) (s.byteAt (s.baseAddr b))

/-- The value of an operand, where its cells exist. -/
def State.opValue16 (s : State) : Operand16 → Word
  | .loc l => s.locValue16 l
  | .imm v => v

/-- The state with a value put in a location, where its cells exist. -/
def State.putLoc16 (s : State) (l : Loc16) (v : Word) : State :=
  match l with
  | .reg r => s.setReg16 r v
  | .direct a => (s.setByte (directAddr a) (loByte v)).setByte (directAddr a + 1) (hiByte v)
  | .base b => (s.setByte (s.baseAddr b) (loByte v)).setByte (s.baseAddr b + 1) (hiByte v)

/-- The first cell of an access of `n` bytes (1 or 2) at `a` that does not exist, if one does not: `a`, else
`a + 1` (R201). -/
def State.badCell (s : State) (n a : Nat) : Option Nat :=
  if s.config.memSize ≤ a then some a
  else if n = 2 ∧ s.config.memSize ≤ a + 1 then some (a + 1)
  else none

/-- The memory operand of an instruction: its address and its width in bytes; none if it has none (R48). -/
def View.memOperand (s : State) : View → Option (Nat × Nat)
  | .two8 _ (.regMem _ b) => some (s.baseAddr b, 1)
  | .two8 _ (.memReg b _) => some (s.baseAddr b, 1)
  | .two8 _ (.regReg _ _) => none
  | .two8 _ (.regImm _ _) => none
  | .two16 _ (.regMem _ b) => some (s.baseAddr b, 2)
  | .two16 _ (.memReg b _) => some (s.baseAddr b, 2)
  | .two16 _ (.regReg _ _) => none
  | .two16 _ (.regImm _ _) => none
  | .load8 _ a => some (directAddr a, 1)
  | .load16 _ a => some (directAddr a, 2)
  | .store8 a _ => some (directAddr a, 1)
  | .store16 a _ => some (directAddr a, 2)
  | .unary8 _ _ => none
  | .unary16 _ _ => none
  | .shift8 _ _ _ => none
  | .shift16 _ _ _ => none
  | .jump _ _ => none
  | .hlt => none

/-- The first cell of an instruction's memory operand that does not exist, if one does not. -/
def View.badCell (s : State) (v : View) : Option Nat :=
  (v.memOperand s).bind fun p => s.badCell p.2 p.1

/-- Where an instruction stores, and how many bytes; none for a form that stores nothing (R48: CMP with a
memory destination reads it and does not write it). -/
def View.storeRange (s : State) : View → Option (Nat × Nat)
  | .two8 op (.memReg b _) => if op = .cmp then none else some (s.baseAddr b, 1)
  | .two8 _ (.regMem _ _) => none
  | .two8 _ (.regReg _ _) => none
  | .two8 _ (.regImm _ _) => none
  | .two16 op (.memReg b _) => if op = .cmp then none else some (s.baseAddr b, 2)
  | .two16 _ (.regMem _ _) => none
  | .two16 _ (.regReg _ _) => none
  | .two16 _ (.regImm _ _) => none
  | .load8 _ _ => none
  | .load16 _ _ => none
  | .store8 a _ => some (directAddr a, 1)
  | .store16 a _ => some (directAddr a, 2)
  | .unary8 _ _ => none
  | .unary16 _ _ => none
  | .shift8 _ _ _ => none
  | .shift16 _ _ _ => none
  | .jump _ _ => none
  | .hlt => none

/-! ### What an instruction may change -/

/-- The word registers an instruction may change (R14): its register destination, and for MUL and DIV the
implicit AX or DX:AX, for LOOP the implicit CX. -/
def View.writesWord : View → Reg16 → Bool
  | .two8 op f, q =>
    match dst8 f with
    | .reg d => decide (op ≠ .cmp ∧ d.parent = q)
    | .direct _ => false
    | .base _ => false
  | .two16 op f, q =>
    match dst16 f with
    | .reg d => decide (op ≠ .cmp ∧ d = q)
    | .direct _ => false
    | .base _ => false
  | .load8 d _, q => decide (d.parent = q)
  | .load16 d _, q => decide (d = q)
  | .store8 _ _, _ => false
  | .store16 _ _, _ => false
  | .unary8 op r, q => if op = .mul ∨ op = .div then decide (q = .ax) else decide (r.parent = q)
  | .unary16 op r, q => if op = .mul ∨ op = .div then decide (q = .ax ∨ q = .dx) else decide (r = q)
  | .shift8 _ r _, q => decide (r.parent = q)
  | .shift16 _ r _, q => decide (r = q)
  | .jump op _, q => decide (op = .loop ∧ q = .cx)
  | .hlt, _ => false

/-- The byte registers an instruction may change (R12, R14): a byte destination is one half only; a word
destination is both halves; the byte forms of MUL and DIV write both halves of AX. -/
def View.writesByte : View → Reg8 → Bool
  | .two8 op f, q =>
    match dst8 f with
    | .reg d => decide (op ≠ .cmp ∧ d = q)
    | .direct _ => false
    | .base _ => false
  | .load8 d _, q => decide (d = q)
  | .unary8 op r, q => if op = .mul ∨ op = .div then decide (q.parent = .ax) else decide (r = q)
  | .shift8 _ r _, q => decide (r = q)
  | .two16 op f, q => (View.two16 op f).writesWord q.parent
  | .load16 d a, q => (View.load16 d a).writesWord q.parent
  | .store8 _ _, _ => false
  | .store16 _ _, _ => false
  | .unary16 op r, q => (View.unary16 op r).writesWord q.parent
  | .shift16 op r c, q => (View.shift16 op r c).writesWord q.parent
  | .jump op rel, q => (View.jump op rel).writesWord q.parent
  | .hlt, _ => false

/-- All six flags. -/
def Flags.all : Flags := ⟨true, true, true, true, true, true⟩

/-- The flags a two-operand operation writes: the rows MOV, ADD to CMP, AND, OR, XOR of R20. -/
def twoOpFlags : TwoOp → Flags
  | .mov => .clear
  | .add => .all
  | .adc => .all
  | .sub => .all
  | .sbb => .all
  | .cmp => .all
  | .and => { Flags.all with af := false }
  | .or => { Flags.all with af := false }
  | .xor => { Flags.all with af := false }

/-- The flags a unary operation writes: the rows INC, DEC, NOT, NEG, MUL, DIV of R20. -/
def unaryFlags : UnaryOp → Flags
  | .inc => { Flags.all with cf := false }
  | .dec => { Flags.all with cf := false }
  | .not => .clear
  | .neg => .all
  | .mul => { Flags.clear with cf := true, of := true }
  | .div => .clear

/-- The flags a shift by `n` writes: the rows SHL, SHR of R20. -/
def shiftFlags (n : Nat) : Flags :=
  if n = 0 then .clear
  else if n = 1 then { Flags.all with af := false }
  else { Flags.all with of := false, af := false }

/-- The flags an instruction writes in a given state (R20); the state only matters for the count of a shift. -/
def View.writesFlags (s : State) : View → Flags
  | .two8 op _ => twoOpFlags op
  | .two16 op _ => twoOpFlags op
  | .load8 _ _ => .clear
  | .load16 _ _ => .clear
  | .store8 _ _ => .clear
  | .store16 _ _ => .clear
  | .unary8 op _ => unaryFlags op
  | .unary16 op _ => unaryFlags op
  | .shift8 _ _ c => shiftFlags (s.shiftCount c)
  | .shift16 _ _ c => shiftFlags (s.shiftCount c)
  | .jump _ _ => .clear
  | .hlt => .clear

/-- Two flag values agree on every flag outside a mask. -/
abbrev Flags.agreeOutside (mask f g : Flags) : Prop :=
  (mask.cf = false → f.cf = g.cf) ∧ (mask.zf = false → f.zf = g.zf) ∧ (mask.sf = false → f.sf = g.sf) ∧
  (mask.of = false → f.of = g.of) ∧ (mask.af = false → f.af = g.af) ∧ (mask.pf = false → f.pf = g.pf)

/-- The condition of a jump in a given state (R171 to R186): always for JMP; for LOOP, CX is not 1, so that CX is
not 0 after the decrement. -/
def takesBranch (s : State) : JumpOp → Bool
  | .jo => s.flags.of
  | .jno => !s.flags.of
  | .jb => s.flags.cf
  | .jnb => !s.flags.cf
  | .jz => s.flags.zf
  | .jnz => !s.flags.zf
  | .jbe => s.flags.cf || s.flags.zf
  | .ja => !(s.flags.cf || s.flags.zf)
  | .js => s.flags.sf
  | .jns => !s.flags.sf
  | .jl => s.flags.sf ^^ s.flags.of
  | .jge => !(s.flags.sf ^^ s.flags.of)
  | .jle => s.flags.zf || (s.flags.sf ^^ s.flags.of)
  | .jg => !(s.flags.zf || (s.flags.sf ^^ s.flags.of))
  | .jmp => true
  | .loop => decide ((s.reg16 .cx).toNat ≠ 1)

/-- The target of a jump over integers: `(IP + 2 + sext(rel8)) mod 65536` (R170). -/
def targetOf (ip : Word) (rel : Byte) : Word :=
  BitVec.ofInt 16 ((ip.toNat : Int) + 2 + (if rel.toNat < 128 then (rel.toNat : Int) else (rel.toNat : Int) - 256))

/-! ### Results and flags over numbers -/

/-- `msb_W(x)` of a natural number below `2^W` (00_scope.md 5.1). -/
def topBit (W x : Nat) : Bool := decide (2 ^ (W - 1) ≤ x)

/-- Whether the low 8 bits of `x` hold an even number of 1 bits (R122). -/
def evenLowByte (x : Nat) : Bool := ((List.range 8).filter fun i => x.testBit i).length % 2 == 0

/-- The result of `Add_W(a, b, c)` (R120). -/
def addResult (W a b c : Nat) : Nat := (a + b + c) % 2 ^ W

/-- All six flags of `Add_W(a, b, c)` and `SetSZP_W` (R120, R122). -/
def addFlags (W a b c : Nat) : Flags where
  cf := decide (2 ^ W ≤ a + b + c)
  zf := decide (addResult W a b c = 0)
  sf := topBit W (addResult W a b c)
  of := (topBit W a == topBit W b) && (topBit W (addResult W a b c) != topBit W a)
  af := decide (16 ≤ a % 16 + b % 16 + c)
  pf := evenLowByte (addResult W a b c)

/-- The result of `Sub_W(a, b, c)`: `(a - b - c) mod 2^W`, over integers (R121). -/
def subResult (W a b c : Nat) : Nat := (((a : Int) - b - c) % (2 ^ W : Nat)).toNat

/-- All six flags of `Sub_W(a, b, c)` and `SetSZP_W` (R121, R122). -/
def subFlags (W a b c : Nat) : Flags where
  cf := decide (a < b + c)
  zf := decide (subResult W a b c = 0)
  sf := topBit W (subResult W a b c)
  of := (topBit W a != topBit W b) && (topBit W (subResult W a b c) != topBit W a)
  af := decide (a % 16 < b % 16 + c)
  pf := evenLowByte (subResult W a b c)

/-- The flags of a two-operand logic instruction with result `r`; AF is the old one (R150). -/
def logicFlags (W r : Nat) (f : Flags) : Flags where
  cf := false
  zf := decide (r = 0)
  sf := topBit W r
  of := false
  af := f.af
  pf := evenLowByte r

/-- The flags of a shift by `n ≥ 1` with result `r` and last bit out `cf`; OF is the given one when `n = 1`, else
the old one; AF is the old one (R155). -/
def shiftedFlags (W r n : Nat) (cf of : Bool) (f : Flags) : Flags where
  cf := cf
  zf := decide (r = 0)
  sf := topBit W r
  of := if n = 1 then of else f.of
  af := f.af
  pf := evenLowByte r

/-! ### Encodings -/

/-- The reserved first bytes (R75 (a)). -/
def reservedFirst (n : Nat) : Bool :=
  decide (n ≤ 0x0F ∨ (0x22 ≤ n ∧ n ≤ 0x2F) ∨ (0x34 ≤ n ∧ n ≤ 0x3F) ∨ (0x88 ≤ n ∧ n ≤ 0x9F) ∨ n = 0xCA ∨ n = 0xCB ∨
    (0xD2 ≤ n ∧ n ≤ 0xF3) ∨ (0xF5 ≤ n ∧ n ≤ 0xFF))

/-- The reserved pairs of first bytes (R75 (a) to (d)), by the values of the two bytes. -/
def reservedPair (b1 b2 : Byte) : Bool :=
  let n := b1.toNat
  let top := b2.toNat / 64
  let mid := b2.toNat / 8 % 8
  let low := b2.toNat % 8
  reservedFirst n ||
  decide ((0x10 ≤ n ∧ n ≤ 0x21) ∧
      (((top = 0 ∨ top = 1) ∧ (low = 0 ∨ low = 1 ∨ low = 2 ∨ low = 4)) ∨
       (top = 2 ∧ n % 2 = 1) ∨ (top = 2 ∧ low ≠ 0))) ||
  decide ((n = 0x30 ∨ n = 0x31) ∧ (top ≠ 3 ∨ mid = 6 ∨ mid = 7)) ||
  decide ((n = 0x32 ∨ n = 0x33) ∧ (top = 3 ∨ 2 ≤ mid))

/-- The bytes of `bs` stand in existing cells from address `a` up. -/
def State.holdsBytes (s : State) (a : Nat) (bs : List Byte) : Prop :=
  ∀ k (h : k < bs.length), a + k < s.config.memSize ∧ s.byteAt (a + k) = bs[k]

/-! ### Shapes of the rules of files 41 to 44 -/

/-- IP after an instruction of length `len` that is not a taken branch (R17). -/
def State.ipAfter (s : State) (len : Nat) : Word := BitVec.ofNat 16 (s.ip.toNat + len)

/-- A two-operand rule (R99, R123 to R127, R151 to R153) for the operation `op`, in every form of R84. Where the
memory operand, if there is one, exists, the instruction completes: with `a` and `b` the values of destination
and source, the destination receives `value W a b` (unless `stores` is false), the flags become `flags W a b`
of the flags before, IP moves past the instruction, RUN becomes Running, and nothing else changes. Where a
cell of the memory operand does not exist, AddressError names the first such cell and nothing else changes
(R201, R204). The first byte of each form is the one the rule gives. -/
def TwoOpRule (op : TwoOp) (first firstImm : Nat) (stores : Bool)
    (value : Nat → Nat → Nat → Flags → Nat) (flags : Nat → Nat → Nat → Flags → Flags) : Prop :=
  (∀ (s : State) (f : Form8), (View.two8 op f).badCell s = none →
    exec (.two8 op f) s =
      .next { (if stores then s.putLoc8 (dst8 f) (BitVec.ofNat 8
                (value 8 (s.locValue8 (dst8 f)).toNat (s.opValue8 (src8 f)).toNat s.flags)) else s) with
        flags := flags 8 (s.locValue8 (dst8 f)).toNat (s.opValue8 (src8 f)).toNat s.flags
        ip := s.ipAfter (formLength8 f)
        run := .running }) ∧
  (∀ (s : State) (f : Form16), (View.two16 op f).badCell s = none →
    exec (.two16 op f) s =
      .next { (if stores then s.putLoc16 (dst16 f) (BitVec.ofNat 16
                (value 16 (s.locValue16 (dst16 f)).toNat (s.opValue16 (src16 f)).toNat s.flags)) else s) with
        flags := flags 16 (s.locValue16 (dst16 f)).toNat (s.opValue16 (src16 f)).toNat s.flags
        ip := s.ipAfter (formLength16 f)
        run := .running }) ∧
  (∀ (s : State) (f : Form8) (x : Nat), (View.two8 op f).badCell s = some x →
    exec (.two8 op f) s = .next { s with fault := some ⟨.addressError, x⟩, run := .faulted }) ∧
  (∀ (s : State) (f : Form16) (x : Nat), (View.two16 op f).badCell s = some x →
    exec (.two16 op f) s = .next { s with fault := some ⟨.addressError, x⟩, run := .faulted }) ∧
  (∀ f : Form8, (encode (.two8 op f)).head? = some (BitVec.ofNat 8 first)) ∧
  (∀ d r b : Reg16, (encode (.two16 op (.regReg d r))).head? = some (BitVec.ofNat 8 (first + 1)) ∧
    (encode (.two16 op (.regMem d b))).head? = some (BitVec.ofNat 8 (first + 1)) ∧
    (encode (.two16 op (.memReg b r))).head? = some (BitVec.ofNat 8 (first + 1))) ∧
  (∀ (d : Reg16) (imm : Word), encode (.two16 op (.regImm d imm)) =
    [BitVec.ofNat 8 (firstImm + d.num), BitVec.ofNat 8 imm.toNat, BitVec.ofNat 8 (imm.toNat / 256)])

/-- A one-register rule (R128 to R130, R154) for the operation `op` with sub-opcode `uuu`: for every register and
every state the instruction completes; the register receives `value W x`, the flags become `flags W x` of the
flags before, IP moves past the two bytes, and nothing else changes. -/
def UnaryRule (op : UnaryOp) (uuu : Nat) (value : Nat → Nat → Nat) (flags : Nat → Nat → Flags → Flags) : Prop :=
  (∀ (s : State) (r : Reg8), exec (.unary8 op r) s =
    .next { s.setReg8 r (BitVec.ofNat 8 (value 8 (s.reg8 r).toNat)) with
      flags := flags 8 (s.reg8 r).toNat s.flags, ip := s.ipAfter 2, run := .running }) ∧
  (∀ (s : State) (r : Reg16), exec (.unary16 op r) s =
    .next { s.setReg16 r (BitVec.ofNat 16 (value 16 (s.reg16 r).toNat)) with
      flags := flags 16 (s.reg16 r).toNat s.flags, ip := s.ipAfter 2, run := .running }) ∧
  (∀ r : Reg8, encode (.unary8 op r) = [0x30, BitVec.ofNat 8 (0xC0 + 8 * uuu + r.num)]) ∧
  (∀ r : Reg16, encode (.unary16 op r) = [0x31, BitVec.ofNat 8 (0xC0 + 8 * uuu + r.num)])

/-- The number of bytes of a shift: 3 with an imm8 count, else 2 (R71). -/
def shiftLength : ShiftCount → Nat
  | .one => 2
  | .cl => 2
  | .imm8 _ => 3

/-- The bytes of a shift of width bit `w` and sub-opcode `sss` on register number `r` (R71). -/
def shiftCode (w sss r : Nat) : ShiftCount → List Byte
  | .one => [BitVec.ofNat 8 (0x32 + w), BitVec.ofNat 8 (8 * sss + r)]
  | .cl => [BitVec.ofNat 8 (0x32 + w), BitVec.ofNat 8 (64 + 8 * sss + r)]
  | .imm8 n => [BitVec.ofNat 8 (0x32 + w), BitVec.ofNat 8 (128 + 8 * sss + r), n]

/-- A shift rule (R155 to R157) for the operation `op` with sub-opcode `sss`, for every register, count form and
state. With a count of 0 only IP moves (and RUN becomes Running). With a count `n ≥ 1` the register receives
`value W x n`, CF the last bit out `last W x n`, OF `ovf W x n` only when `n = 1`, ZF, SF and PF come from the
result, AF and, for `n ≥ 2`, OF keep their values, and nothing else changes but IP and RUN. -/
def ShiftRule (op : ShiftOp) (sss : Nat) (value : Nat → Nat → Nat → Nat) (last ovf : Nat → Nat → Nat → Bool) : Prop :=
  (∀ (s : State) (r : Reg8) (c : ShiftCount), s.shiftCount c = 0 →
    exec (.shift8 op r c) s = .next { s with ip := s.ipAfter (shiftLength c), run := .running }) ∧
  (∀ (s : State) (r : Reg16) (c : ShiftCount), s.shiftCount c = 0 →
    exec (.shift16 op r c) s = .next { s with ip := s.ipAfter (shiftLength c), run := .running }) ∧
  (∀ (s : State) (r : Reg8) (c : ShiftCount), 1 ≤ s.shiftCount c →
    exec (.shift8 op r c) s =
      .next { s.setReg8 r (BitVec.ofNat 8 (value 8 (s.reg8 r).toNat (s.shiftCount c))) with
        flags := shiftedFlags 8 (value 8 (s.reg8 r).toNat (s.shiftCount c)) (s.shiftCount c)
          (last 8 (s.reg8 r).toNat (s.shiftCount c)) (ovf 8 (s.reg8 r).toNat (s.shiftCount c)) s.flags
        ip := s.ipAfter (shiftLength c)
        run := .running }) ∧
  (∀ (s : State) (r : Reg16) (c : ShiftCount), 1 ≤ s.shiftCount c →
    exec (.shift16 op r c) s =
      .next { s.setReg16 r (BitVec.ofNat 16 (value 16 (s.reg16 r).toNat (s.shiftCount c))) with
        flags := shiftedFlags 16 (value 16 (s.reg16 r).toNat (s.shiftCount c)) (s.shiftCount c)
          (last 16 (s.reg16 r).toNat (s.shiftCount c)) (ovf 16 (s.reg16 r).toNat (s.shiftCount c)) s.flags
        ip := s.ipAfter (shiftLength c)
        run := .running }) ∧
  (∀ s : State, s.shiftCount .one = 1 ∧ s.shiftCount .cl = (s.reg16 .cx).toNat % 256 ∧
    ∀ n : Byte, s.shiftCount (.imm8 n) = n.toNat) ∧
  (∀ (r : Reg8) (c : ShiftCount), encode (.shift8 op r c) = shiftCode 0 sss r.num c) ∧
  (∀ (r : Reg16) (c : ShiftCount), encode (.shift16 op r c) = shiftCode 1 sss r.num c)

/-- A conditional-jump rule (R170, R172 to R185) for the jump `op` with first byte `first`: for every
displacement and state the instruction completes; IP becomes the target where the condition holds of the flags,
else the address after the two bytes; nothing else changes but RUN. -/
def JumpRule (op : JumpOp) (first : Nat) (condition : Flags → Bool) : Prop :=
  (∀ (s : State) (rel : Byte), exec (.jump op rel) s =
    .next { s with ip := if condition s.flags then targetOf s.ip rel else s.ipAfter 2, run := .running }) ∧
  (∀ rel : Byte, encode (.jump op rel) = [BitVec.ofNat 8 first, rel])

/-- A jump is taken after `CMP a,b` exactly when a relation holds of the operands, at both widths (R127). -/
def AfterCmp (condition : Flags → Bool) (holds : (w : Nat) → BitVec w → BitVec w → Prop) : Prop :=
  (∀ (a b : Byte) (f : Flags), condition (cmpFlags a b f) = true ↔ holds 8 a b) ∧
  (∀ (a b : Word) (f : Flags), condition (cmpFlags a b f) = true ↔ holds 16 a b)

end Sys2Proof.Machine
end

