-- ==== Sys2Proof/Certificates/Slice0/Obligations.lean ====
section
/-! DEFINITION. The statements for the provers. Each docstring names the rule or section of spec/ it formalises;
the vocabulary is Safety.lean's. -/

open Sys2Proof Sys2Proof.Machine

/-! ### Encoding -/

/-- 30_encoding.md sections 3 to 5 (R66 to R73): the decoder reads back every well-formed instruction from its
encoding, whatever bytes follow, and refuses the encoding of an ill-formed one for its base field. -/
def Obligations.DecodeOfEncodeIsTheInstruction : Prop :=
  ∀ (i : Instr) (rest : List Byte),
    (i.wf = true → decode (encode i ++ rest) = .done i) ∧
    (i.wf = false → decode (encode i ++ rest) = .reserved .baseField)

/-- 30_encoding.md sections 3 to 5 (R66 to R73, R77): whenever the decoder answers an instruction, it is well
formed and the bytes read are exactly its encoding, so no two encodings decode to one instruction form. -/
def Obligations.DecodedBytesAreTheEncoding : Prop :=
  ∀ (bytes : List Byte) (i : Instr), decode bytes = .done i →
    i.wf = true ∧ ∃ rest, bytes = encode i ++ rest

/-- R75: the reserved encodings are exactly (a) to (d); a first byte is refused alone exactly when it is in (a);
executing a reserved encoding raises InvalidAddressError(IP) and does nothing else. -/
def Obligations.ReservedEncodingsAreExactlyTheListed : Prop :=
  (∀ b1 : Byte, (∃ why, decode [b1] = .reserved why) ↔ reservedFirst b1.toNat = true) ∧
  (∀ (b1 b2 : Byte) (rest : List Byte),
    (∃ why, decode (b1 :: b2 :: rest) = .reserved why) ↔ reservedPair b1 b2 = true) ∧
  (∀ (s : State) (b1 : Byte), s.run.canStep = true → s.startAllowed = true →
    s.holdsBytes s.ip.toNat [b1] → reservedFirst b1.toNat = true →
    step s = .next { s with fault := some ⟨.invalidAddressError, s.ip.toNat⟩, run := .faulted }) ∧
  (∀ (s : State) (b1 b2 : Byte), s.run.canStep = true → s.startAllowed = true →
    s.holdsBytes s.ip.toNat [b1, b2] → reservedPair b1 b2 = true →
    step s = .next { s with fault := some ⟨.invalidAddressError, s.ip.toNat⟩, run := .faulted })

/-- 30_encoding.md section 7 (R86) and opcode_table.json: the encoding of every instruction has its row's length,
and its first two bytes (HLT: its one byte and 0) match its row's pattern under its row's mask. -/
def Obligations.EncodingsMatchTheOpcodeTable : Prop :=
  ∀ i : Instr,
    (encode i).length = i.opcodeRow.length ∧
    (((encode i).headD 0).toNat * 256 + ((encode i).tail.headD 0).toNat) &&& i.opcodeRow.mask = i.opcodeRow.pattern

/-- R62: the length of an instruction is the one the table gives for its first two bytes, and a first byte the
table gives no length is refused before a second is read. -/
def Obligations.LengthFollowsFromTheFirstTwoBytes : Prop :=
  (∀ (b1 b2 : Byte) (rest : List Byte) (i : Instr), decode (b1 :: b2 :: rest) = .done i →
    lengthOfBytes b1 b2 = some i.length ∧ (encode i).length = i.length) ∧
  (∀ b1 b2 : Byte, lengthOfBytes b1 b2 = none ↔ ∃ why, decode [b1] = .reserved why)

/-- Words written out from the encodings of R67 to R73 decode to the instructions the rules name. -/
def Obligations.SampleWordsDecode : Prop :=
  decode [0x11, 0xC3] = .done (.movR16R16 .ax .bx) ∧
  decode [0x20, 0x06] = .done (.cmpR8Base .al .si) ∧
  decode [0x10, 0x46] = .done (.movBaseR8 .si .al) ∧
  decode [0x12, 0xA0, 0x0F] = .done (.addR8Imm8 .ah 0x0F) ∧
  decode [0x80, 0x34, 0x12] = .done (.cmpR16Imm16 .ax 0x1234) ∧
  decode [0xB5, 0x01, 0x20] = .done (.movAddrR8 0x2001 .ch) ∧
  decode [0x31, 0xE1] = .done (.mulR16 .cx) ∧
  decode [0x33, 0x80, 0x04] = .done (.shlR16Imm8 .ax 4) ∧
  decode [0xC5, 0xEA] = .done (.jnz 0xEA) ∧
  decode [0xF4] = .done .hlt

/-! ### The step -/

/-- 40_execution_and_operands.md section 1 (R90): when the core may step and the bytes at IP decode to an
instruction, the step is that instruction's execution at the same state. -/
def Obligations.StepExecutesTheDecodedInstruction : Prop :=
  ∀ (s : State) (bytes : List Byte) (i : Instr),
    s.run.canStep = true → s.startAllowed = true →
    decode bytes = .done i → bytes.length = i.length → s.holdsBytes s.ip.toNat bytes →
    step s = exec i s

/-- R91: a step requested in Halted or Faulted is refused and reported, by `Step` and by `Run`, with the state
unchanged; every other host operation but Reset, LoadEntry and power-on leaves RUN as it is. -/
def Obligations.StoppedCoreRefusesTheStep : Prop :=
  (∀ s : State, s.run = .halted →
    step s = .refused .coreHalted ∧ s.hostStep = .refused .coreHalted s) ∧
  (∀ s : State, s.run = .faulted →
    step s = .refused .coreFaulted ∧ s.hostStep = .refused .coreFaulted s) ∧
  (∀ (s : State) (k : Nat), s.run.canStep = false → (s.hostRun k).final = s ∧ (s.hostRun k).n = 0) ∧
  (∀ (s t : State) (a : Nat) (bytes : List Byte), s.writeMemory a bytes = .ok t → t.run = s.run) ∧
  (∀ s : State, s.clearMemory.run = s.run)

/-- 60_exceptions.md R205, checks 1 to 6, with R92: the faults of a fetch, each under the failure of all checks
before it. -/
def Obligations.FetchFaultsComeInOrder : Prop :=
  ∀ s : State, s.run.canStep = true →
    (s.startAllowed = false →
      step s = .next { s with fault := some ⟨.invalidAddressError, s.ip.toNat⟩, run := .faulted }) ∧
    (s.startAllowed = true → s.config.memSize ≤ s.ip.toNat →
      step s = .next { s with fault := some ⟨.addressError, s.ip.toNat⟩, run := .faulted }) ∧
    (∀ b1 : Byte, s.startAllowed = true → s.holdsBytes s.ip.toNat [b1] →
      (∀ why, decode [b1] = .reserved why →
        step s = .next { s with fault := some ⟨.invalidAddressError, s.ip.toNat⟩, run := .faulted }) ∧
      (decode [b1] = .more → s.config.memSize ≤ s.ip.toNat + 1 →
        step s = .next { s with fault := some ⟨.addressError, s.ip.toNat + 1⟩, run := .faulted })) ∧
    (∀ b1 b2 : Byte, s.startAllowed = true → decode [b1] = .more → s.holdsBytes s.ip.toNat [b1, b2] →
      (∀ why, decode [b1, b2] = .reserved why →
        step s = .next { s with fault := some ⟨.invalidAddressError, s.ip.toNat⟩, run := .faulted }) ∧
      (decode [b1, b2] = .more → s.config.memSize ≤ s.ip.toNat + 2 →
        step s = .next { s with fault := some ⟨.addressError, s.ip.toNat + 2⟩, run := .faulted }))

/-- R204: a step of a core that may step, after which RUN is Faulted, has written FAULT and RUN and changed
nothing else: no register, flag, IP, ENTRY, memory cell or parameter. -/
def Obligations.FaultsArePrecise : Prop :=
  ∀ s t : State, step s = .next t → t.run = .faulted →
    ∃ (cause : FaultCause) (info : Nat), t = { s with fault := some ⟨cause, info⟩, run := .faulted }

/-- Every step keeps the invariant. FAULT is set exactly when RUN = Faulted (10_state.md R23); memory lists no cell
outside `0 .. MEM_SIZE - 1` (20_memory.md R40); MEM_SIZE is at least 1 (00_scope.md R3). Two clauses are the model's
choice, not the spec's: that memory is in canonical form (assumption 6, DEDUCED) and that CODE_STARTS is listed
without repeats (assumption 3, DESIGN CHOICE). -/
def Obligations.EveryStepKeepsTheInvariant : Prop :=
  ∀ s t : State, s.wf → step s = .next t → t.wf

/-- The state after reset has the invariant, and so has power-on with any legal parameters. Memory zero, FAULT none
and RUN Ready are 10_state.md R29. Two clauses are the model's choice, not the spec's: that memory is in canonical form
(assumption 6, DEDUCED) and that CODE_STARTS is listed without repeats (assumption 3, DESIGN CHOICE). -/
def Obligations.ResetHasTheInvariant : Prop :=
  State.reset.wf ∧ ∀ c : Config, c.wf → (State.powerOn c).wf

/-- R22: how RUN moves. Power-on, Reset and LoadEntry give Ready; a step that completes HLT gives Halted; a step
that completes another instruction gives Running; a step that faults gives Faulted; a step in Halted or Faulted
is refused and leaves the state as it is; Ready and Running behave identically. -/
def Obligations.RunStateMovesAsTheTableSays : Prop :=
  (∀ c : Config, (State.powerOn c).run = .ready) ∧
  (∀ s : State, s.hostReset.run = .ready) ∧
  (∀ (s : State) (a : Word) (starts : Option (Option (List Word))), (s.loadEntry a starts).run = .ready) ∧
  (∀ (s : State) (f : FaultRecord), s.run.canStep = true → fetch s = .error f →
    ∃ t, step s = .next t ∧ t.run = .faulted ∧ t.fault = some f) ∧
  (∀ s : State, s.run.canStep = true → fetch s = .ok .hlt → ∃ t, step s = .next t ∧ t.run = .halted) ∧
  (∀ (s : State) (i : Instr), s.run.canStep = true → fetch s = .ok i → i ≠ .hlt →
    ∃ t, step s = .next t ∧
      ((t.run = .running ∧ t.fault = s.fault) ∨ (t.run = .faulted ∧ t.fault.isSome = true))) ∧
  (∀ s : State, s.run.canStep = false → ∃ why, step s = .refused why ∧ s.hostStep = .refused why s) ∧
  (∀ s : State, step { s with run := .ready } = step { s with run := .running })

/-- R230: the state at power-on, for every legal choice of the parameters, and the fault of the first step in it. -/
def Obligations.PowerOnZeroesEverything : Prop :=
  ∀ c : Config, c.wf →
    (∀ r : Reg16, (State.powerOn c).reg16 r = 0) ∧
    (State.powerOn c).ip = 0 ∧
    (State.powerOn c).flags = ⟨false, false, false, false, false, false⟩ ∧
    (State.powerOn c).run = .ready ∧ (State.powerOn c).fault = none ∧ (State.powerOn c).entry = 0 ∧
    (∀ a : Nat, (State.powerOn c).byteAt a = 0) ∧
    step (State.powerOn c) =
      .next { State.powerOn c with fault := some ⟨.invalidAddressError, 0⟩, run := .faulted }

/-- R231: `Reset` in every RUN state, what it leaves unchanged, and that it is idempotent. -/
def Obligations.ResetRestoresTheEntry : Prop :=
  ∀ s : State,
    (∀ r : Reg16, s.hostReset.reg16 r = 0) ∧
    s.hostReset.flags = ⟨false, false, false, false, false, false⟩ ∧
    s.hostReset.ip = s.entry ∧ s.hostReset.run = .ready ∧ s.hostReset.fault = none ∧
    s.hostReset.entry = s.entry ∧ s.hostReset.mem = s.mem ∧ s.hostReset.config = s.config ∧
    s.hostReset.hostReset = s.hostReset

/-- 70_reset_and_hazards.md section 1 (R232): `LoadEntry(a)` sets ENTRY, IP, RUN and FAULT, replaces CODE_STARTS only
when the host supplies a new value of it, and changes nothing else. That the host may also make CODE_STARTS absent
(`starts = none` in the second clause) is the model's choice, not the spec's (assumption 3, DESIGN CHOICE). -/
def Obligations.LoadEntrySetsTheCursor : Prop :=
  ∀ (s : State) (a : Word),
    s.loadEntry a none = { s with entry := a, ip := a, run := .ready, fault := none } ∧
    ∀ starts : Option (List Word),
      s.loadEntry a (some starts) =
        { s with entry := a, ip := a, run := .ready, fault := none,
                 config := { s.config with codeStarts := starts } }

/-- R239 and R240: the host's range accesses are checked whole first; a read returns the bytes in ascending
order; a write stores `bytes[i]` at `a + i` and changes no other cell and no other state; an error names the first
address at or beyond MEM_SIZE and leaves no state (what it names when `a` itself is beyond MEM_SIZE is assumption 5
and is not stated). -/
def Obligations.HostMemoryAccessIsAllOrNothing : Prop :=
  (∀ (s : State) (a count : Nat), a + count ≤ s.config.memSize →
    ∃ bytes, s.readMemory a count = .ok bytes ∧ bytes.length = count ∧
      ∀ k (h : k < bytes.length), bytes[k] = s.byteAt (a + k)) ∧
  (∀ (s : State) (a count : Nat), s.config.memSize < a + count →
    ∃ x, s.readMemory a count = .error ⟨.addressError, x⟩ ∧ s.config.memSize ≤ x ∧
      (a ≤ s.config.memSize → x = s.config.memSize)) ∧
  (∀ (s : State) (a : Nat) (bytes : List Byte), Memory.wf s.mem → a + bytes.length ≤ s.config.memSize →
    ∃ t, s.writeMemory a bytes = .ok t ∧ t = { s with mem := t.mem } ∧
      (∀ k (h : k < bytes.length), t.byteAt (a + k) = bytes[k]) ∧
      (∀ x : Nat, (x < a ∨ a + bytes.length ≤ x) → t.byteAt x = s.byteAt x)) ∧
  (∀ (s : State) (a : Nat) (bytes : List Byte), s.config.memSize < a + bytes.length →
    ∃ x, s.writeMemory a bytes = .error ⟨.addressError, x⟩ ∧ s.config.memSize ≤ x ∧
      (a ≤ s.config.memSize → x = s.config.memSize))

/-- R241: `ClearMemory` zeroes every cell and changes nothing else, and the next step of a core that can step and
whose IP is inside memory raises InvalidAddressError(IP). -/
def Obligations.ClearMemoryZeroesEveryCell : Prop :=
  (∀ (s : State) (a : Nat), s.clearMemory.byteAt a = 0) ∧
  (∀ s : State, s.clearMemory = { s with mem := s.clearMemory.mem }) ∧
  (∀ s : State, s.run.canStep = true → s.ip.toNat < s.config.memSize →
    step s.clearMemory =
      .next { s.clearMemory with fault := some ⟨.invalidAddressError, s.ip.toNat⟩, run := .faulted })

/-- R236: a `Run` performs its `n` steps one after the other from the start state, at most `maxSteps` of them, and
all of them when the budget is reported exhausted; it reports one descriptor a step, with the addresses executed,
and the two result flags and FAULT of the state it ends in. -/
def Obligations.RunStepsUntilStoppedOrOutOfBudget : Prop :=
  ∀ (maxSteps : Nat) (s : State),
    (s.hostRun maxSteps).n ≤ maxSteps ∧
    core.run (s.hostRun maxSteps).n s = .next (s.hostRun maxSteps).final ∧
    (s.hostRun maxSteps).trace.length = (s.hostRun maxSteps).n ∧
    (∀ k (h : k < (s.hostRun maxSteps).trace.length),
      ∃ u v : State, core.run k s = .next u ∧ step u = .next v ∧
        (s.hostRun maxSteps).trace[k] = stepDescriptor u v) ∧
    (s.hostRun maxSteps).haltedNormally = decide ((s.hostRun maxSteps).final.run = .halted) ∧
    (s.hostRun maxSteps).budgetExhausted = (s.hostRun maxSteps).final.run.canStep ∧
    ((s.hostRun maxSteps).budgetExhausted = true → (s.hostRun maxSteps).n = maxSteps) ∧
    (s.hostRun maxSteps).fault = (s.hostRun maxSteps).final.fault

/-- 20_memory.md R55: bytes the host writes at IP between two steps are the instruction the next step executes. -/
def Obligations.NextFetchSeesTheHostsWrite : Prop :=
  ∀ (s t : State) (i : Instr), Memory.wf s.mem → s.run.canStep = true → s.startAllowed = true →
    i.wf = true → s.writeMemory s.ip.toNat (encode i) = .ok t → step t = exec i t

/-- The model's own interface (assumption 4): the instruction a table word decodes to is the one the next step
runs once the word is placed with `withFetchWord`, wherever three cells exist from IP up. -/
def Obligations.PlacedTableWordRunsNext : Prop :=
  ∀ (s : State) (nbits w : Nat) (i : Instr), Memory.wf s.mem → s.ip.toNat + 2 < s.config.memSize →
    decodeTableWord nbits w = some i →
    step (s.withFetchWord nbits w) = exec i (s.withFetchWord nbits w)

/-! ### What every instruction leaves alone -/

/-- 10_state.md R24, R25 and R3: no instruction reads or writes ENTRY or changes the parameters: executing with
another ENTRY gives the same outcome with that ENTRY. -/
def Obligations.EntryAndParametersAreOutOfReach : Prop :=
  (∀ (i : Instr) (s t : State), exec i s = .next t → t.entry = s.entry ∧ t.config = s.config) ∧
  (∀ (i : Instr) (s t : State) (e : Word), exec i s = .next t →
    exec i { s with entry := e } = .next { t with entry := e })

/-- 10_state.md R12, R14: an instruction changes no word register and no byte register other than its register
destination and those R14 names (AX, DX for MUL and DIV, CX for LOOP). FAULT is changed by a fault only. -/
def Obligations.RegistersChangeOnlyWhereNamed : Prop :=
  ∀ (i : Instr) (s t : State), exec i s = .next t →
    (∀ q : Reg16, i.view.writesWord q = false → t.reg16 q = s.reg16 q) ∧
    (∀ q : Reg8, i.view.writesByte q = false → t.reg8 q = s.reg8 q) ∧
    (t.run ≠ .faulted → t.fault = s.fault)

/-- 10_state.md R20: an instruction changes no flag that its row of the table marks `-` or `u`; the row of a shift is
chosen by the value of its count. -/
def Obligations.FlagsChangeOnlyWhereTheTableSays : Prop :=
  ∀ (i : Instr) (s t : State), exec i s = .next t →
    Flags.agreeOutside (i.view.writesFlags s) t.flags s.flags

/-- 20_memory.md R48: the only memory bytes an instruction changes are those of its memory destination, at the
address the operand gives in the state before; a form that stores nothing changes no byte. -/
def Obligations.MemoryChangesOnlyAtTheStoredBytes : Prop :=
  ∀ (i : Instr) (s t : State), exec i s = .next t →
    (i.view.storeRange s = none → ∀ x : Nat, t.byteAt x = s.byteAt x) ∧
    (∀ a n : Nat, i.view.storeRange s = some (a, n) →
      ∀ x : Nat, (x < a ∨ a + n ≤ x) → t.byteAt x = s.byteAt x)

/-- 10_state.md section 2 (R17, which the spec marks as derived): IP after an instruction: a taken branch gives the target, any other completed instruction IP plus its
length modulo 65536, a fault leaves IP. -/
def Obligations.IpAdvancesByTheLengthOrToTheTarget : Prop :=
  ∀ (i : Instr) (s t : State), exec i s = .next t →
    (t.run = .faulted → t.ip = s.ip) ∧
    (t.run ≠ .faulted →
      (∀ (op : JumpOp) (rel : Byte), i = .jump op rel → takesBranch s op = true → t.ip = targetOf s.ip rel) ∧
      (∀ (op : JumpOp) (rel : Byte), i = .jump op rel → takesBranch s op = false →
        t.ip.toNat = (s.ip.toNat + 2) % 65536) ∧
      ((∀ (op : JumpOp) (rel : Byte), i ≠ .jump op rel) → t.ip.toNat = (s.ip.toNat + i.length) % 65536))

/-- 60_exceptions.md section 2 (R209, which the spec marks as derived): after its fetch an instruction raises no fault but AddressError, by one with a memory operand, and
DivideError, by DIV; the register-only forms, the jumps, LOOP and HLT raise none. -/
def Obligations.OnlyMemoryOperandsAndDivFault : Prop :=
  ∀ (i : Instr) (s t : State), exec i s = .next t → t.run = .faulted →
    (∃ p x, i.view.memOperand s = some p ∧ i.view.badCell s = some x ∧ t.fault = some ⟨.addressError, x⟩) ∨
    ((∃ r, i = .unary8 .div r ∨ ∃ q, i = .unary16 .div q) ∧ t.fault = some ⟨.divideError, s.ip.toNat⟩)

/-! ### Registers and memory -/

/-- R12: a byte register is one half of its word; writing it leaves the other half and every other register; writing
the word changes both halves. -/
def Obligations.ByteRegistersAliasHalvesOfWords : Prop :=
  (∀ (s : State) (r : Reg8), (s.reg8 r).toNat =
    if r.num / 4 = 0 then (s.reg16 (Reg16.ofField (BitVec.ofNat 3 (r.num % 4)))).toNat % 256
    else (s.reg16 (Reg16.ofField (BitVec.ofNat 3 (r.num % 4)))).toNat / 256) ∧
  (∀ (s : State) (r q : Reg8) (v : Byte), (s.setReg8 r v).reg8 q = if q = r then v else s.reg8 q) ∧
  (∀ (s : State) (r : Reg8) (q : Reg16) (v : Byte), q ≠ r.parent → (s.setReg8 r v).reg16 q = s.reg16 q) ∧
  (∀ (s : State) (r : Reg8) (v : Byte), (s.setReg8 r v).reg16 r.parent =
    if r.isHigh then ((s.reg16 r.parent) &&& 0x00FF) ||| BitVec.ofNat 16 (v.toNat * 256)
    else ((s.reg16 r.parent) &&& 0xFF00) ||| BitVec.ofNat 16 v.toNat) ∧
  (∀ (s : State) (r : Reg8) (v : Word), (s.setReg16 r.parent v).reg8 r =
    if r.isHigh then BitVec.ofNat 8 (v.toNat / 256) else BitVec.ofNat 8 v.toNat)

/-- R43: what `MemRead` returns at each width and the fault it raises, by the order of its checks. -/
def Obligations.MemReadChecksThenReadsLittleEndian : Prop :=
  ∀ (s : State) (a : Nat),
    (s.config.memSize ≤ a → s.memRead8 a = .error ⟨.addressError, a⟩ ∧ s.memRead16 a = .error ⟨.addressError, a⟩) ∧
    (a < s.config.memSize → s.memRead8 a = .ok (s.byteAt a)) ∧
    (a < s.config.memSize → s.config.memSize ≤ a + 1 → s.memRead16 a = .error ⟨.addressError, a + 1⟩) ∧
    (a + 1 < s.config.memSize →
      s.memRead16 a = .ok (BitVec.ofNat 16 ((s.byteAt (a + 1)).toNat * 256 + (s.byteAt a).toNat)))

/-- 20_memory.md section 2 (R44): what `MemWrite` does at each width: a fault writes no cell; else the cells of the
operand receive its bytes, low byte first, and every other cell and all other state keep their values. That memory
stays in canonical form is the model's choice of representation, not the spec's (assumption 6, DEDUCED). -/
def Obligations.MemWriteStoresTheWholeOperandOrNothing : Prop :=
  ∀ (s : State) (a : Nat) (b : Byte) (v : Word), Memory.wf s.mem →
    (s.config.memSize ≤ a →
      s.memWrite8 a b = .error ⟨.addressError, a⟩ ∧ s.memWrite16 a v = .error ⟨.addressError, a⟩) ∧
    (a < s.config.memSize → ∃ t, s.memWrite8 a b = .ok t ∧ t = { s with mem := t.mem } ∧ Memory.wf t.mem ∧
      t.byteAt a = b ∧ ∀ x, x ≠ a → t.byteAt x = s.byteAt x) ∧
    (a < s.config.memSize → s.config.memSize ≤ a + 1 → s.memWrite16 a v = .error ⟨.addressError, a + 1⟩) ∧
    (a + 1 < s.config.memSize → ∃ t, s.memWrite16 a v = .ok t ∧ t = { s with mem := t.mem } ∧ Memory.wf t.mem ∧
      (t.byteAt a).toNat = v.toNat % 256 ∧ (t.byteAt (a + 1)).toNat = v.toNat / 256 ∧
      ∀ x, x ≠ a → x ≠ a + 1 → t.byteAt x = s.byteAt x)

/-! ### Arithmetic and flags -/

/-- R120: the result and flags of `Add_W` at W = 8 and W = 16: the sum modulo `2^W`; CF the carry out of the top
bit; AF the carry out of bit 3; OF, that operands of the same sign give a result of the other, which is that the
signed sum does not fit in W bits. -/
def Obligations.AddHelperMatchesTheRule : Prop :=
  ∀ (w : Nat) (a b : BitVec w) (c : Bool), w = 8 ∨ w = 16 →
    (addW a b c).result.toNat = (a.toNat + b.toNat + c.toNat) % 2 ^ w ∧
    (addW a b c).cf = decide (2 ^ w ≤ a.toNat + b.toNat + c.toNat) ∧
    (addW a b c).af = decide (16 ≤ a.toNat % 16 + b.toNat % 16 + c.toNat) ∧
    (addW a b c).of = decide (a.msb = b.msb ∧ (addW a b c).result.msb ≠ a.msb) ∧
    (addW a b c).of = decide (a.toInt + b.toInt + c.toNat < -(2 ^ (w - 1) : Int) ∨
      (2 ^ (w - 1) : Int) ≤ a.toInt + b.toInt + c.toNat)

/-- R121: the result and flags of `Sub_W` at W = 8 and W = 16: the difference modulo `2^W`; CF the borrow; AF the
borrow out of bit 3; OF, that the operands differ in sign and the result's sign is not the minuend's, which is that
the signed difference does not fit in W bits. -/
def Obligations.SubHelperMatchesTheRule : Prop :=
  ∀ (w : Nat) (a b : BitVec w) (c : Bool), w = 8 ∨ w = 16 →
    ((subW a b c).result.toNat : Int) = ((a.toNat : Int) - b.toNat - c.toNat) % (2 ^ w : Int) ∧
    (subW a b c).cf = decide (a.toNat < b.toNat + c.toNat) ∧
    (subW a b c).af = decide (a.toNat % 16 < b.toNat % 16 + c.toNat) ∧
    (subW a b c).of = decide (a.msb ≠ b.msb ∧ (subW a b c).result.msb ≠ a.msb) ∧
    (subW a b c).of = decide (a.toInt - b.toInt - c.toNat < -(2 ^ (w - 1) : Int) ∨
      (2 ^ (w - 1) : Int) ≤ a.toInt - b.toInt - c.toNat)

/-- R122: ZF, SF and PF of a result at W = 8 and W = 16; PF looks at the low byte only and is set for an even
number of 1 bits; the other flags are not touched. -/
def Obligations.ResultFlagsMatchTheRule : Prop :=
  ∀ (w : Nat) (r : BitVec w) (f : Flags), w = 8 ∨ w = 16 →
    (f.setSZP r).zf = decide (r.toNat = 0) ∧
    (f.setSZP r).sf = decide (2 ^ (w - 1) ≤ r.toNat) ∧
    (f.setSZP r).pf = decide (((List.range 8).filter fun i => r.toNat.testBit i).length % 2 = 0) ∧
    (f.setSZP r).cf = f.cf ∧ (f.setSZP r).of = f.of ∧ (f.setSZP r).af = f.af

/-- 42_add_sub.md section 4 (R131, which the spec marks as derived): the five properties of the arithmetic: (1) results are below `2^W`; (2) subtraction is the addition of the
complement, with CF and AF complemented and the same OF; (3) CMP and SUB leave the same flags; (4) NEG twice
restores the register; (5) INC then DEC restores the register and leaves CF. -/
def Obligations.ArithmeticPropertiesHold : Prop :=
  (∀ (w : Nat) (a b : BitVec w) (c : Bool), w = 8 ∨ w = 16 →
    (addW a b c).result.toNat < 2 ^ w ∧ (subW a b c).result.toNat < 2 ^ w ∧
    (subW a b c).result = (addW a (BitVec.ofNat w (2 ^ w - 1 - b.toNat)) (!c)).result ∧
    (subW a b c).cf = !(addW a (BitVec.ofNat w (2 ^ w - 1 - b.toNat)) (!c)).cf ∧
    (subW a b c).af = !(addW a (BitVec.ofNat w (2 ^ w - 1 - b.toNat)) (!c)).af ∧
    (subW a b c).of = (addW a (BitVec.ofNat w (2 ^ w - 1 - b.toNat)) (!c)).of) ∧
  (∀ (s t u : State) (f : Form8), exec (.two8 .cmp f) s = .next t → exec (.two8 .sub f) s = .next u →
    t.flags = u.flags) ∧
  (∀ (s t u : State) (f : Form16), exec (.two16 .cmp f) s = .next t → exec (.two16 .sub f) s = .next u →
    t.flags = u.flags) ∧
  (∀ (s : State) (r : Reg8), ∃ t u, exec (.negR8 r) s = .next t ∧ exec (.negR8 r) t = .next u ∧ u.regs = s.regs) ∧
  (∀ (s : State) (r : Reg16), ∃ t u, exec (.negR16 r) s = .next t ∧ exec (.negR16 r) t = .next u ∧ u.regs = s.regs) ∧
  (∀ (s : State) (r : Reg8), ∃ t u, exec (.incR8 r) s = .next t ∧ exec (.decR8 r) t = .next u ∧ u.regs = s.regs ∧
    t.flags.cf = s.flags.cf ∧ u.flags.cf = s.flags.cf) ∧
  (∀ (s : State) (r : Reg16), ∃ t u, exec (.incR16 r) s = .next t ∧ exec (.decR16 r) t = .next u ∧ u.regs = s.regs ∧
    t.flags.cf = s.flags.cf ∧ u.flags.cf = s.flags.cf)

/-! ### The instructions -/

/-- R110: MOV in all its forms: the destination receives the source, no flag changes; with a missing memory cell,
AddressError and no other effect. The direct-address forms are stated one by one. -/
def Obligations.MovCopiesTheSource : Prop :=
  TwoOpRule .mov 0x10 0x40 true (fun _ _ b _ => b) (fun _ _ _ f => f) ∧
  (∀ (s : State) (d : Reg8) (a : Word), a.toNat < s.config.memSize →
    exec (.movR8Addr d a) s =
      .next { s.setReg8 d (s.byteAt a.toNat) with ip := s.ipAfter 3, run := .running }) ∧
  (∀ (s : State) (d : Reg16) (a : Word), a.toNat + 1 < s.config.memSize →
    exec (.movR16Addr d a) s =
      .next { s.setReg16 d (joinBytes (s.byteAt (a.toNat + 1)) (s.byteAt a.toNat)) with
        ip := s.ipAfter 3, run := .running }) ∧
  (∀ (s : State) (a : Word) (r : Reg8), a.toNat < s.config.memSize →
    exec (.movAddrR8 a r) s =
      .next { s.setByte a.toNat (s.reg8 r) with ip := s.ipAfter 3, run := .running }) ∧
  (∀ (s : State) (a : Word) (r : Reg16), a.toNat + 1 < s.config.memSize →
    exec (.movAddrR16 a r) s =
      .next { (s.setByte a.toNat (loByte (s.reg16 r))).setByte (a.toNat + 1) (hiByte (s.reg16 r)) with
        ip := s.ipAfter 3, run := .running }) ∧
  (∀ (s : State) (v : View) (x : Nat), v.badCell s = some x →
    (∃ d a, v = .load8 d a) ∨ (∃ d a, v = .load16 d a) ∨ (∃ a r, v = .store8 a r) ∨ (∃ a r, v = .store16 a r) →
    exec v.instr s = .next { s with fault := some ⟨.addressError, x⟩, run := .faulted }) ∧
  (∀ (n : Word) (d : Reg8), encode (.movR8Addr d n) =
      [BitVec.ofNat 8 (0xA0 + d.num), BitVec.ofNat 8 n.toNat, BitVec.ofNat 8 (n.toNat / 256)] ∧
    encode (.movAddrR8 n d) =
      [BitVec.ofNat 8 (0xB0 + d.num), BitVec.ofNat 8 n.toNat, BitVec.ofNat 8 (n.toNat / 256)]) ∧
  (∀ (n : Word) (d : Reg16), encode (.movR16Addr d n) =
      [BitVec.ofNat 8 (0xA8 + d.num), BitVec.ofNat 8 n.toNat, BitVec.ofNat 8 (n.toNat / 256)] ∧
    encode (.movAddrR16 n d) =
      [BitVec.ofNat 8 (0xB8 + d.num), BitVec.ofNat 8 n.toNat, BitVec.ofNat 8 (n.toNat / 256)])

/-- R123: ADD in all its forms. -/
def Obligations.AddStoresTheSumAndAllFlags : Prop :=
  TwoOpRule .add 0x12 0x48 true (fun W a b _ => addResult W a b 0) (fun W a b _ => addFlags W a b 0)

/-- R124: ADC in all its forms; the incoming CF is the third addend. -/
def Obligations.AdcAddsTheIncomingCarry : Prop :=
  TwoOpRule .adc 0x14 0x50 true (fun W a b f => addResult W a b f.cf.toNat) (fun W a b f => addFlags W a b f.cf.toNat)

/-- R125: SUB in all its forms. -/
def Obligations.SubStoresTheDifferenceAndAllFlags : Prop :=
  TwoOpRule .sub 0x16 0x58 true (fun W a b _ => subResult W a b 0) (fun W a b _ => subFlags W a b 0)

/-- R126: SBB in all its forms; the incoming CF is subtracted as well. -/
def Obligations.SbbSubtractsTheIncomingBorrow : Prop :=
  TwoOpRule .sbb 0x18 0x60 true (fun W a b f => subResult W a b f.cf.toNat) (fun W a b f => subFlags W a b f.cf.toNat)

/-- R127: CMP in all its forms: the flags of SUB, nothing stored; after it ZF says `a = b`, CF says `a < b` unsigned,
and SF ≠ OF says `a < b` signed. -/
def Obligations.CmpSetsTheFlagsOfSubOnly : Prop :=
  TwoOpRule .cmp 0x20 0x80 false (fun W a b _ => subResult W a b 0) (fun W a b _ => subFlags W a b 0) ∧
  AfterCmp (fun f => f.zf) (fun _ a b => a = b) ∧
  AfterCmp (fun f => f.cf) (fun _ a b => a.toNat < b.toNat) ∧
  AfterCmp (fun f => f.sf != f.of) (fun _ a b => a.toInt < b.toInt)

/-- R151, R152, R153 with R150: AND, OR, XOR in all their forms: CF and OF cleared, AF kept. -/
def Obligations.LogicStoresTheBitwiseResult : Prop :=
  TwoOpRule .and 0x1A 0x68 true (fun _ a b _ => a &&& b) (fun W a b f => logicFlags W (a &&& b) f) ∧
  TwoOpRule .or 0x1C 0x70 true (fun _ a b _ => a ||| b) (fun W a b f => logicFlags W (a ||| b) f) ∧
  TwoOpRule .xor 0x1E 0x78 true (fun _ a b _ => a ^^^ b) (fun W a b f => logicFlags W (a ^^^ b) f)

/-- R128: NEG at both widths: `0 - x` with all six flags; CF unless the operand is zero; OF only for the most
negative value; AF unless the low digit is zero. -/
def Obligations.NegSubtractsFromZero : Prop :=
  UnaryRule .neg 3 (fun W x => subResult W 0 x 0) (fun W x _ => subFlags W 0 x 0) ∧
  (∀ (W x : Nat), W = 8 ∨ W = 16 → x < 2 ^ W →
    (subFlags W 0 x 0).cf = decide (x ≠ 0) ∧ (subFlags W 0 x 0).of = decide (x = 2 ^ (W - 1)) ∧
    (subFlags W 0 x 0).af = decide (x % 16 ≠ 0))

/-- R129: INC at both widths: the flags of adding 1, CF unchanged. -/
def Obligations.IncAddsOneKeepingCarry : Prop :=
  UnaryRule .inc 0 (fun W x => addResult W x 1 0) (fun W x f => { addFlags W x 1 0 with cf := f.cf })

/-- R130: DEC at both widths: the flags of subtracting 1, CF unchanged. -/
def Obligations.DecSubtractsOneKeepingCarry : Prop :=
  UnaryRule .dec 1 (fun W x => subResult W x 1 0) (fun W x f => { subFlags W x 1 0 with cf := f.cf })

/-- R154: NOT at both widths: every bit inverted, no flag written. -/
def Obligations.NotInvertsEveryBitWithoutFlags : Prop :=
  UnaryRule .not 2 (fun W x => 2 ^ W - 1 - x) (fun _ _ f => f)

/-- R140: MUL at both widths: the full product, CF and OF from its upper half, the other four flags unchanged; it
completes for every operand. -/
def Obligations.MulStoresTheFullProduct : Prop :=
  (∀ (s : State) (r : Reg8), ∃ t, exec (.mulR8 r) s = .next t ∧
    t = { s with regs := t.regs, flags := t.flags, ip := s.ipAfter 2, run := .running } ∧
    (t.reg16 .ax).toNat = (s.reg8 .al).toNat * (s.reg8 r).toNat ∧
    (∀ q : Reg16, q ≠ .ax → t.reg16 q = s.reg16 q) ∧
    t.flags = { s.flags with cf := decide (256 ≤ (s.reg8 .al).toNat * (s.reg8 r).toNat)
                             of := decide (256 ≤ (s.reg8 .al).toNat * (s.reg8 r).toNat) }) ∧
  (∀ (s : State) (r : Reg16), ∃ t, exec (.mulR16 r) s = .next t ∧
    t = { s with regs := t.regs, flags := t.flags, ip := s.ipAfter 2, run := .running } ∧
    (t.reg16 .dx).toNat * 65536 + (t.reg16 .ax).toNat = (s.reg16 .ax).toNat * (s.reg16 r).toNat ∧
    (∀ q : Reg16, q ≠ .ax → q ≠ .dx → t.reg16 q = s.reg16 q) ∧
    t.flags = { s.flags with cf := decide (65536 ≤ (s.reg16 .ax).toNat * (s.reg16 r).toNat)
                             of := decide (65536 ≤ (s.reg16 .ax).toNat * (s.reg16 r).toNat) }) ∧
  (∀ r : Reg8, encode (.mulR8 r) = [0x30, BitVec.ofNat 8 (0xE0 + r.num)]) ∧
  (∀ r : Reg16, encode (.mulR16 r) = [0x31, BitVec.ofNat 8 (0xE0 + r.num)])

/-- R141: DIV at both widths: it completes, with quotient and remainder and every flag unchanged, exactly when the
divisor is not 0 and the quotient fits; else DivideError(IP), with nothing else changed. The quotient does not fit
exactly when the upper half of the dividend is at least the divisor. -/
def Obligations.DivStoresQuotientAndRemainderOrFaults : Prop :=
  (∀ (s : State) (r : Reg8), (s.reg8 .ah).toNat < (s.reg8 r).toNat →
    (s.reg16 .ax).toNat / (s.reg8 r).toNat < 256 ∧
    ∃ t, exec (.divR8 r) s = .next t ∧ t = { s with regs := t.regs, ip := s.ipAfter 2, run := .running } ∧
      (t.reg8 .al).toNat = (s.reg16 .ax).toNat / (s.reg8 r).toNat ∧
      (t.reg8 .ah).toNat = (s.reg16 .ax).toNat % (s.reg8 r).toNat ∧
      (∀ q : Reg16, q ≠ .ax → t.reg16 q = s.reg16 q)) ∧
  (∀ (s : State) (r : Reg8), (s.reg8 r).toNat ≤ (s.reg8 .ah).toNat →
    (s.reg8 r = 0 ∨ 256 ≤ (s.reg16 .ax).toNat / (s.reg8 r).toNat) ∧
    exec (.divR8 r) s = .next { s with fault := some ⟨.divideError, s.ip.toNat⟩, run := .faulted }) ∧
  (∀ (s : State) (r : Reg16), (s.reg16 .dx).toNat < (s.reg16 r).toNat →
    ((s.reg16 .dx).toNat * 65536 + (s.reg16 .ax).toNat) / (s.reg16 r).toNat < 65536 ∧
    ∃ t, exec (.divR16 r) s = .next t ∧ t = { s with regs := t.regs, ip := s.ipAfter 2, run := .running } ∧
      (t.reg16 .ax).toNat = ((s.reg16 .dx).toNat * 65536 + (s.reg16 .ax).toNat) / (s.reg16 r).toNat ∧
      (t.reg16 .dx).toNat = ((s.reg16 .dx).toNat * 65536 + (s.reg16 .ax).toNat) % (s.reg16 r).toNat ∧
      (∀ q : Reg16, q ≠ .ax → q ≠ .dx → t.reg16 q = s.reg16 q)) ∧
  (∀ (s : State) (r : Reg16), (s.reg16 r).toNat ≤ (s.reg16 .dx).toNat →
    (s.reg16 r = 0 ∨ 65536 ≤ ((s.reg16 .dx).toNat * 65536 + (s.reg16 .ax).toNat) / (s.reg16 r).toNat) ∧
    exec (.divR16 r) s = .next { s with fault := some ⟨.divideError, s.ip.toNat⟩, run := .faulted }) ∧
  (∀ r : Reg8, encode (.divR8 r) = [0x30, BitVec.ofNat 8 (0xE8 + r.num)]) ∧
  (∀ r : Reg16, encode (.divR16 r) = [0x31, BitVec.ofNat 8 (0xE8 + r.num)])

/-- 43_mul_div.md section 3 (R142, which the spec marks as derived): MUL then DIV by the same register, other than those the two write, restores the multiplicand, leaves the
upper half 0, and raises no fault, when the divisor is not 0. -/
def Obligations.DivUndoesMul : Prop :=
  (∀ (s : State) (r : Reg16), r ≠ .ax → r ≠ .dx → s.reg16 r ≠ 0 →
    ∃ t u, exec (.mulR16 r) s = .next t ∧ exec (.divR16 r) t = .next u ∧
      u.run = .running ∧ u.fault = s.fault ∧ u.reg16 .ax = s.reg16 .ax ∧ u.reg16 .dx = 0) ∧
  (∀ (s : State) (r : Reg8), r ≠ .al → r ≠ .ah → s.reg8 r ≠ 0 →
    ∃ t u, exec (.mulR8 r) s = .next t ∧ exec (.divR8 r) t = .next u ∧
      u.run = .running ∧ u.fault = s.fault ∧ u.reg8 .al = s.reg8 .al ∧ u.reg8 .ah = 0)

/-- R155, R156: SHL at both widths, every count form and every count. -/
def Obligations.ShlShiftsLeftByTheWholeCount : Prop :=
  ShiftRule .shl 0 (fun W x n => x * 2 ^ n % 2 ^ W)
    (fun W x n => decide (n ≤ W) && x.testBit (W - n))
    (fun W x n => (decide (n ≤ W) && x.testBit (W - n)) ^^ topBit W (x * 2 ^ n % 2 ^ W))

/-- R155, R157: SHR at both widths, every count form and every count. -/
def Obligations.ShrShiftsRightByTheWholeCount : Prop :=
  ShiftRule .shr 1 (fun _ x n => x / 2 ^ n)
    (fun W x n => decide (n ≤ W) && x.testBit (n - 1))
    (fun W x _ => topBit W x)

/-- 44_logic_shift.md section 2 (what R155 says of a shift by a count): a shift by `n + 1` is a shift by `n` followed by a shift by 1, in its result and in CF, ZF, SF, PF and AF:
a shift by a count is that many shifts by one, CF the bit the last of them shifts out. -/
def Obligations.ShiftByCountIsRepeatedShiftByOne : Prop :=
  ∀ (w : Nat) (x : BitVec w) (n : Nat) (f : Flags), w = 8 ∨ w = 16 →
    (aluShl x (n + 1) f).result = (aluShl (aluShl x n f).result 1 (aluShl x n f).flags).result ∧
    (aluShr x (n + 1) f).result = (aluShr (aluShr x n f).result 1 (aluShr x n f).flags).result ∧
    { (aluShl x (n + 1) f).flags with of := f.of } =
      { (aluShl (aluShl x n f).result 1 (aluShl x n f).flags).flags with of := f.of } ∧
    { (aluShr x (n + 1) f).flags with of := f.of } =
      { (aluShr (aluShr x n f).result 1 (aluShr x n f).flags).flags with of := f.of }

/-- R172 to R181: the jumps on one flag or on CF and ZF, with their meaning after CMP. -/
def Obligations.FlagAndUnsignedJumps : Prop :=
  JumpRule .jo 0xC0 (fun f => f.of) ∧
  JumpRule .jno 0xC1 (fun f => !f.of) ∧
  JumpRule .jb 0xC2 (fun f => f.cf) ∧ AfterCmp condJb (fun _ a b => a.toNat < b.toNat) ∧
  JumpRule .jnb 0xC3 (fun f => !f.cf) ∧ AfterCmp condJnb (fun _ a b => b.toNat ≤ a.toNat) ∧
  JumpRule .jz 0xC4 (fun f => f.zf) ∧ AfterCmp condJz (fun _ a b => a = b) ∧
  JumpRule .jnz 0xC5 (fun f => !f.zf) ∧ AfterCmp condJnz (fun _ a b => a ≠ b) ∧
  JumpRule .jbe 0xC6 (fun f => f.cf || f.zf) ∧ AfterCmp condJbe (fun _ a b => a.toNat ≤ b.toNat) ∧
  JumpRule .ja 0xC7 (fun f => !f.cf && !f.zf) ∧ AfterCmp condJa (fun _ a b => b.toNat < a.toNat) ∧
  JumpRule .js 0xC8 (fun f => f.sf) ∧
  JumpRule .jns 0xC9 (fun f => !f.sf)

/-- R182 to R185: the jumps on SF, OF and ZF, with their signed meaning after CMP. -/
def Obligations.SignedJumps : Prop :=
  JumpRule .jl 0xCC (fun f => decide (f.sf ≠ f.of)) ∧ AfterCmp condJl (fun _ a b => a.toInt < b.toInt) ∧
  JumpRule .jge 0xCD (fun f => decide (f.sf = f.of)) ∧ AfterCmp condJge (fun _ a b => b.toInt ≤ a.toInt) ∧
  JumpRule .jle 0xCE (fun f => f.zf || decide (f.sf ≠ f.of)) ∧ AfterCmp condJle (fun _ a b => a.toInt ≤ b.toInt) ∧
  JumpRule .jg 0xCF (fun f => !f.zf && decide (f.sf = f.of)) ∧ AfterCmp condJg (fun _ a b => b.toInt < a.toInt)

/-- R171: JMP goes to its target, always, and changes nothing else. -/
def Obligations.JmpGoesToTheTarget : Prop :=
  JumpRule .jmp 0xD0 (fun _ => true)

/-- R186: LOOP decrements CX modulo 65536 and branches exactly when CX is not 0 after that; no flag changes. -/
def Obligations.LoopDecrementsThenTests : Prop :=
  (∀ (s : State) (rel : Byte), exec (.loop rel) s =
    .next { s.setReg16 .cx (BitVec.ofNat 16 ((s.reg16 .cx).toNat + 65535)) with
      ip := if ((s.reg16 .cx).toNat + 65535) % 65536 ≠ 0 then targetOf s.ip rel else s.ipAfter 2
      run := .running }) ∧
  (∀ rel : Byte, encode (.loop rel) = [0xD1, rel])

/-- R187: HLT moves IP past its one byte, modulo 65536, and halts the core; nothing else changes, and the next step
is refused. -/
def Obligations.HltHaltsTheCore : Prop :=
  (∀ s : State, exec .hlt s = .next { s with ip := s.ipAfter 1, run := .halted }) ∧
  (∀ s : State, step { s with ip := s.ipAfter 1, run := .halted } = .refused .coreHalted) ∧
  encode .hlt = [0xF4]
end

