-- ==== Sys2Proof/Laws/Alu.lean ====
section
/-! SUPPORT. The arithmetic of Flags.lean against the same rules over numbers (Safety.lean): sign, parity, sums,
differences, logic results. -/

namespace Sys2Proof.Machine

theorem topBit_toNat {w : Nat} (x : BitVec w) : topBit w x.toNat = x.msb := by
  rw [BitVec.msb_eq_decide, topBit]

theorem popcountLow_eq (w : Nat) (x : BitVec w) (k : Nat) :
    popcountLow x k = ((List.range k).filter fun i => x.toNat.testBit i).length := by
  induction k with
  | zero => rfl
  | succ k ih =>
    rw [popcountLow, ih, List.range_succ, List.filter_append, List.length_append]
    cases h : x.getLsbD k <;> simp [BitVec.testBit_toNat, h]

theorem parity8_eq {w : Nat} (x : BitVec w) : parity8 x = evenLowByte x.toNat := by
  rw [parity8, popcountLow_eq, evenLowByte]

theorem eq_zero_iff_toNat {w : Nat} (x : BitVec w) : (x = 0) ↔ x.toNat = 0 := by
  constructor
  · rintro rfl; simp
  · intro h; exact BitVec.eq_of_toNat_eq (by simpa using h)

/-- ZF, SF and PF of a result, over its number. -/
theorem setSZP_eq {w : Nat} (f : Flags) (r : BitVec w) :
    f.setSZP r = { f with zf := decide (r.toNat = 0), sf := topBit w r.toNat, pf := evenLowByte r.toNat } := by
  simp only [Flags.setSZP, parity8_eq, topBit_toNat, eq_zero_iff_toNat]

theorem addW_toNat {w : Nat} (a b : BitVec w) (c : Bool) :
    (addW a b c).result.toNat = addResult w a.toNat b.toNat c.toNat := by
  simp [addW, addResult]

theorem addW_result {w : Nat} (a b : BitVec w) (c : Bool) :
    (addW a b c).result = BitVec.ofNat w (addResult w a.toNat b.toNat c.toNat) := by
  apply BitVec.eq_of_toNat_eq
  rw [addW_toNat, BitVec.toNat_ofNat, addResult, Nat.mod_mod]

/-- All six flags of an addition, over numbers. -/
theorem ofSum_addW {w : Nat} (f : Flags) (a b : BitVec w) (c : Bool) :
    f.ofSum (addW a b c) = addFlags w a.toNat b.toNat c.toNat := by
  rw [Flags.ofSum, setSZP_eq, addW_toNat]
  simp only [addW, addFlags, topBit_toNat]
  congr 2
  rw [← topBit_toNat, BitVec.toNat_ofNat, addResult]

theorem subW_toNat {w : Nat} (a b : BitVec w) (c : Bool) :
    (subW a b c).result.toNat = subResult w a.toNat b.toNat c.toNat := by
  simp [subW, subResult, BitVec.toNat_ofInt]

theorem subResult_lt (w a b c : Nat) : subResult w a b c < 2 ^ w := by
  have h : (0 : Int) < ((2 ^ w : Nat) : Int) := by exact_mod_cast Nat.two_pow_pos w
  have h1 := Int.emod_lt_of_pos ((a : Int) - b - c) h
  have h2 := Int.emod_nonneg ((a : Int) - b - c) (Int.ne_of_gt h)
  simp only [subResult]
  omega

theorem subW_result {w : Nat} (a b : BitVec w) (c : Bool) :
    (subW a b c).result = BitVec.ofNat w (subResult w a.toNat b.toNat c.toNat) := by
  apply BitVec.eq_of_toNat_eq
  rw [subW_toNat, BitVec.toNat_ofNat, Nat.mod_eq_of_lt (subResult_lt _ _ _ _)]

/-- All six flags of a subtraction, over numbers. -/
theorem ofSum_subW {w : Nat} (f : Flags) (a b : BitVec w) (c : Bool) :
    f.ofSum (subW a b c) = subFlags w a.toNat b.toNat c.toNat := by
  rw [Flags.ofSum, setSZP_eq, subW_toNat]
  have hr : (BitVec.ofInt w ((a.toNat : Int) - b.toNat - c.toNat)).msb = topBit w (subResult w a.toNat b.toNat c.toNat) := by
    rw [← topBit_toNat, ← subW_toNat]
    rfl
  simp only [subW, subFlags, topBit_toNat, hr]
  congr 1
  · exact decide_eq_decide.mpr (by omega)
  · exact decide_eq_decide.mpr (by omega)

/-- The flags of INC and DEC are those of the sum or difference with the old CF. -/
theorem ofSumKeepCF_eq {w : Nat} (f : Flags) (o : Sum w) : f.ofSumKeepCF o = { f.ofSum o with cf := f.cf } := rfl

theorem ofLogic_eq {w : Nat} (f : Flags) (r : BitVec w) : f.ofLogic r = logicFlags w r.toNat f := by
  rw [Flags.ofLogic, setSZP_eq]
  rfl

theorem ofShift_eq {w : Nat} (f : Flags) (n : Nat) (cf o : Bool) (r : BitVec w) :
    f.ofShift n cf o r = shiftedFlags w r.toNat n cf o f := by
  rw [Flags.ofShift, setSZP_eq]
  rfl

end Sys2Proof.Machine
end

