-- ==== Sys2Proof/Laws/State.lean ====
section
/-! SUPPORT. For each update of `State`, one lemma per field: what the field is after it. All hold by `rfl` and are
simp lemmas, so no later proof unfolds a record update. -/

namespace Sys2Proof.Machine

@[simp] theorem State.setReg16_regs (s : State) (r : Reg16) (v : Word) : (s.setReg16 r v).regs = s.regs.set r v := rfl
@[simp] theorem State.setReg16_ip (s : State) (r : Reg16) (v : Word) : (s.setReg16 r v).ip = s.ip := rfl
@[simp] theorem State.setReg16_flags (s : State) (r : Reg16) (v : Word) : (s.setReg16 r v).flags = s.flags := rfl
@[simp] theorem State.setReg16_run (s : State) (r : Reg16) (v : Word) : (s.setReg16 r v).run = s.run := rfl
@[simp] theorem State.setReg16_fault (s : State) (r : Reg16) (v : Word) : (s.setReg16 r v).fault = s.fault := rfl
@[simp] theorem State.setReg16_entry (s : State) (r : Reg16) (v : Word) : (s.setReg16 r v).entry = s.entry := rfl
@[simp] theorem State.setReg16_mem (s : State) (r : Reg16) (v : Word) : (s.setReg16 r v).mem = s.mem := rfl
@[simp] theorem State.setReg16_config (s : State) (r : Reg16) (v : Word) : (s.setReg16 r v).config = s.config := rfl

@[simp] theorem State.setReg8_ip (s : State) (r : Reg8) (v : Byte) : (s.setReg8 r v).ip = s.ip := rfl
@[simp] theorem State.setReg8_flags (s : State) (r : Reg8) (v : Byte) : (s.setReg8 r v).flags = s.flags := rfl
@[simp] theorem State.setReg8_run (s : State) (r : Reg8) (v : Byte) : (s.setReg8 r v).run = s.run := rfl
@[simp] theorem State.setReg8_fault (s : State) (r : Reg8) (v : Byte) : (s.setReg8 r v).fault = s.fault := rfl
@[simp] theorem State.setReg8_entry (s : State) (r : Reg8) (v : Byte) : (s.setReg8 r v).entry = s.entry := rfl
@[simp] theorem State.setReg8_mem (s : State) (r : Reg8) (v : Byte) : (s.setReg8 r v).mem = s.mem := rfl
@[simp] theorem State.setReg8_config (s : State) (r : Reg8) (v : Byte) : (s.setReg8 r v).config = s.config := rfl

@[simp] theorem State.setFlags_regs (s : State) (f : Flags) : (s.setFlags f).regs = s.regs := rfl
@[simp] theorem State.setFlags_ip (s : State) (f : Flags) : (s.setFlags f).ip = s.ip := rfl
@[simp] theorem State.setFlags_flags (s : State) (f : Flags) : (s.setFlags f).flags = f := rfl
@[simp] theorem State.setFlags_run (s : State) (f : Flags) : (s.setFlags f).run = s.run := rfl
@[simp] theorem State.setFlags_fault (s : State) (f : Flags) : (s.setFlags f).fault = s.fault := rfl
@[simp] theorem State.setFlags_entry (s : State) (f : Flags) : (s.setFlags f).entry = s.entry := rfl
@[simp] theorem State.setFlags_mem (s : State) (f : Flags) : (s.setFlags f).mem = s.mem := rfl
@[simp] theorem State.setFlags_config (s : State) (f : Flags) : (s.setFlags f).config = s.config := rfl

@[simp] theorem State.setByte_regs (s : State) (a : Nat) (v : Byte) : (s.setByte a v).regs = s.regs := rfl
@[simp] theorem State.setByte_ip (s : State) (a : Nat) (v : Byte) : (s.setByte a v).ip = s.ip := rfl
@[simp] theorem State.setByte_flags (s : State) (a : Nat) (v : Byte) : (s.setByte a v).flags = s.flags := rfl
@[simp] theorem State.setByte_run (s : State) (a : Nat) (v : Byte) : (s.setByte a v).run = s.run := rfl
@[simp] theorem State.setByte_fault (s : State) (a : Nat) (v : Byte) : (s.setByte a v).fault = s.fault := rfl
@[simp] theorem State.setByte_entry (s : State) (a : Nat) (v : Byte) : (s.setByte a v).entry = s.entry := rfl
@[simp] theorem State.setByte_mem (s : State) (a : Nat) (v : Byte) : (s.setByte a v).mem = Memory.write s.mem a v := rfl
@[simp] theorem State.setByte_config (s : State) (a : Nat) (v : Byte) : (s.setByte a v).config = s.config := rfl

@[simp] theorem State.raise_regs (s : State) (f : FaultRecord) : (s.raise f).regs = s.regs := rfl
@[simp] theorem State.raise_ip (s : State) (f : FaultRecord) : (s.raise f).ip = s.ip := rfl
@[simp] theorem State.raise_flags (s : State) (f : FaultRecord) : (s.raise f).flags = s.flags := rfl
@[simp] theorem State.raise_run (s : State) (f : FaultRecord) : (s.raise f).run = .faulted := rfl
@[simp] theorem State.raise_fault (s : State) (f : FaultRecord) : (s.raise f).fault = some f := rfl
@[simp] theorem State.raise_entry (s : State) (f : FaultRecord) : (s.raise f).entry = s.entry := rfl
@[simp] theorem State.raise_mem (s : State) (f : FaultRecord) : (s.raise f).mem = s.mem := rfl
@[simp] theorem State.raise_config (s : State) (f : FaultRecord) : (s.raise f).config = s.config := rfl

@[simp] theorem State.complete_regs (s : State) (n : Nat) : (s.complete n).regs = s.regs := rfl
@[simp] theorem State.complete_ip (s : State) (n : Nat) : (s.complete n).ip = s.nextIp n := rfl
@[simp] theorem State.complete_flags (s : State) (n : Nat) : (s.complete n).flags = s.flags := rfl
@[simp] theorem State.complete_run (s : State) (n : Nat) : (s.complete n).run = .running := rfl
@[simp] theorem State.complete_fault (s : State) (n : Nat) : (s.complete n).fault = s.fault := rfl
@[simp] theorem State.complete_entry (s : State) (n : Nat) : (s.complete n).entry = s.entry := rfl
@[simp] theorem State.complete_mem (s : State) (n : Nat) : (s.complete n).mem = s.mem := rfl
@[simp] theorem State.complete_config (s : State) (n : Nat) : (s.complete n).config = s.config := rfl

@[simp] theorem State.branch_regs (s : State) (t : Word) : (s.branch t).regs = s.regs := rfl
@[simp] theorem State.branch_ip (s : State) (t : Word) : (s.branch t).ip = t := rfl
@[simp] theorem State.branch_flags (s : State) (t : Word) : (s.branch t).flags = s.flags := rfl
@[simp] theorem State.branch_run (s : State) (t : Word) : (s.branch t).run = .running := rfl
@[simp] theorem State.branch_fault (s : State) (t : Word) : (s.branch t).fault = s.fault := rfl
@[simp] theorem State.branch_entry (s : State) (t : Word) : (s.branch t).entry = s.entry := rfl
@[simp] theorem State.branch_mem (s : State) (t : Word) : (s.branch t).mem = s.mem := rfl
@[simp] theorem State.branch_config (s : State) (t : Word) : (s.branch t).config = s.config := rfl

@[simp] theorem State.halt_regs (s : State) (n : Nat) : (s.halt n).regs = s.regs := rfl
@[simp] theorem State.halt_ip (s : State) (n : Nat) : (s.halt n).ip = s.nextIp n := rfl
@[simp] theorem State.halt_flags (s : State) (n : Nat) : (s.halt n).flags = s.flags := rfl
@[simp] theorem State.halt_run (s : State) (n : Nat) : (s.halt n).run = .halted := rfl
@[simp] theorem State.halt_fault (s : State) (n : Nat) : (s.halt n).fault = s.fault := rfl
@[simp] theorem State.halt_entry (s : State) (n : Nat) : (s.halt n).entry = s.entry := rfl
@[simp] theorem State.halt_mem (s : State) (n : Nat) : (s.halt n).mem = s.mem := rfl
@[simp] theorem State.halt_config (s : State) (n : Nat) : (s.halt n).config = s.config := rfl

@[simp] theorem State.hostReset_regs (s : State) : (s.hostReset).regs = Regs.zero := rfl
@[simp] theorem State.hostReset_ip (s : State) : (s.hostReset).ip = s.entry := rfl
@[simp] theorem State.hostReset_flags (s : State) : (s.hostReset).flags = Flags.clear := rfl
@[simp] theorem State.hostReset_run (s : State) : (s.hostReset).run = .ready := rfl
@[simp] theorem State.hostReset_fault (s : State) : (s.hostReset).fault = none := rfl
@[simp] theorem State.hostReset_entry (s : State) : (s.hostReset).entry = s.entry := rfl
@[simp] theorem State.hostReset_mem (s : State) : (s.hostReset).mem = s.mem := rfl
@[simp] theorem State.hostReset_config (s : State) : (s.hostReset).config = s.config := rfl

@[simp] theorem State.loadEntry_regs (s : State) (a : Word) (o : Option (Option (List Word))) : (s.loadEntry a o).regs = s.regs := rfl
@[simp] theorem State.loadEntry_ip (s : State) (a : Word) (o : Option (Option (List Word))) : (s.loadEntry a o).ip = a := rfl
@[simp] theorem State.loadEntry_flags (s : State) (a : Word) (o : Option (Option (List Word))) : (s.loadEntry a o).flags = s.flags := rfl
@[simp] theorem State.loadEntry_run (s : State) (a : Word) (o : Option (Option (List Word))) : (s.loadEntry a o).run = .ready := rfl
@[simp] theorem State.loadEntry_fault (s : State) (a : Word) (o : Option (Option (List Word))) : (s.loadEntry a o).fault = none := rfl
@[simp] theorem State.loadEntry_entry (s : State) (a : Word) (o : Option (Option (List Word))) : (s.loadEntry a o).entry = a := rfl
@[simp] theorem State.loadEntry_mem (s : State) (a : Word) (o : Option (Option (List Word))) : (s.loadEntry a o).mem = s.mem := rfl
@[simp] theorem State.loadEntry_config (s : State) (a : Word) (o : Option (Option (List Word))) : (s.loadEntry a o).config = { s.config with codeStarts := o.getD s.config.codeStarts } := rfl

@[simp] theorem State.clearMemory_regs (s : State) : (s.clearMemory).regs = s.regs := rfl
@[simp] theorem State.clearMemory_ip (s : State) : (s.clearMemory).ip = s.ip := rfl
@[simp] theorem State.clearMemory_flags (s : State) : (s.clearMemory).flags = s.flags := rfl
@[simp] theorem State.clearMemory_run (s : State) : (s.clearMemory).run = s.run := rfl
@[simp] theorem State.clearMemory_fault (s : State) : (s.clearMemory).fault = s.fault := rfl
@[simp] theorem State.clearMemory_entry (s : State) : (s.clearMemory).entry = s.entry := rfl
@[simp] theorem State.clearMemory_mem (s : State) : (s.clearMemory).mem = [] := rfl
@[simp] theorem State.clearMemory_config (s : State) : (s.clearMemory).config = s.config := rfl

@[simp] theorem State.powerOn_regs (c : Config) : (State.powerOn c).regs = Regs.zero := rfl
@[simp] theorem State.powerOn_ip (c : Config) : (State.powerOn c).ip = 0 := rfl
@[simp] theorem State.powerOn_flags (c : Config) : (State.powerOn c).flags = Flags.clear := rfl
@[simp] theorem State.powerOn_run (c : Config) : (State.powerOn c).run = .ready := rfl
@[simp] theorem State.powerOn_fault (c : Config) : (State.powerOn c).fault = none := rfl
@[simp] theorem State.powerOn_entry (c : Config) : (State.powerOn c).entry = 0 := rfl
@[simp] theorem State.powerOn_mem (c : Config) : (State.powerOn c).mem = [] := rfl
@[simp] theorem State.powerOn_config (c : Config) : (State.powerOn c).config = c := rfl

@[simp] theorem State.setReg16_reg16 (s : State) (r q : Reg16) (v : Word) :
    (s.setReg16 r v).reg16 q = (s.regs.set r v).get q := rfl
@[simp] theorem State.setFlags_reg16 (s : State) (f : Flags) (q : Reg16) : (s.setFlags f).reg16 q = s.reg16 q := rfl
@[simp] theorem State.setFlags_reg8 (s : State) (f : Flags) (q : Reg8) : (s.setFlags f).reg8 q = s.reg8 q := rfl
@[simp] theorem State.setByte_reg16 (s : State) (a : Nat) (v : Byte) (q : Reg16) : (s.setByte a v).reg16 q = s.reg16 q := rfl
@[simp] theorem State.setByte_reg8 (s : State) (a : Nat) (v : Byte) (q : Reg8) : (s.setByte a v).reg8 q = s.reg8 q := rfl
@[simp] theorem State.raise_reg16 (s : State) (f : FaultRecord) (q : Reg16) : (s.raise f).reg16 q = s.reg16 q := rfl
@[simp] theorem State.raise_reg8 (s : State) (f : FaultRecord) (q : Reg8) : (s.raise f).reg8 q = s.reg8 q := rfl
@[simp] theorem State.complete_reg16 (s : State) (n : Nat) (q : Reg16) : (s.complete n).reg16 q = s.reg16 q := rfl
@[simp] theorem State.complete_reg8 (s : State) (n : Nat) (q : Reg8) : (s.complete n).reg8 q = s.reg8 q := rfl
@[simp] theorem State.branch_reg16 (s : State) (t : Word) (q : Reg16) : (s.branch t).reg16 q = s.reg16 q := rfl
@[simp] theorem State.branch_reg8 (s : State) (t : Word) (q : Reg8) : (s.branch t).reg8 q = s.reg8 q := rfl
@[simp] theorem State.halt_reg16 (s : State) (n : Nat) (q : Reg16) : (s.halt n).reg16 q = s.reg16 q := rfl
@[simp] theorem State.halt_reg8 (s : State) (n : Nat) (q : Reg8) : (s.halt n).reg8 q = s.reg8 q := rfl
@[simp] theorem State.loadEntry_reg16 (s : State) (a : Word) (o : Option (Option (List Word))) (q : Reg16) : (s.loadEntry a o).reg16 q = s.reg16 q := rfl
@[simp] theorem State.loadEntry_reg8 (s : State) (a : Word) (o : Option (Option (List Word))) (q : Reg8) : (s.loadEntry a o).reg8 q = s.reg8 q := rfl
@[simp] theorem State.clearMemory_reg16 (s : State) (q : Reg16) : (s.clearMemory).reg16 q = s.reg16 q := rfl
@[simp] theorem State.clearMemory_reg8 (s : State) (q : Reg8) : (s.clearMemory).reg8 q = s.reg8 q := rfl
@[simp] theorem State.setReg16_byteAt (s : State) (r : Reg16) (v : Word) (x : Nat) : (s.setReg16 r v).byteAt x = s.byteAt x := rfl
@[simp] theorem State.setReg8_byteAt (s : State) (r : Reg8) (v : Byte) (x : Nat) : (s.setReg8 r v).byteAt x = s.byteAt x := rfl
@[simp] theorem State.setFlags_byteAt (s : State) (f : Flags) (x : Nat) : (s.setFlags f).byteAt x = s.byteAt x := rfl
@[simp] theorem State.raise_byteAt (s : State) (f : FaultRecord) (x : Nat) : (s.raise f).byteAt x = s.byteAt x := rfl
@[simp] theorem State.complete_byteAt (s : State) (n : Nat) (x : Nat) : (s.complete n).byteAt x = s.byteAt x := rfl
@[simp] theorem State.branch_byteAt (s : State) (t : Word) (x : Nat) : (s.branch t).byteAt x = s.byteAt x := rfl
@[simp] theorem State.halt_byteAt (s : State) (n : Nat) (x : Nat) : (s.halt n).byteAt x = s.byteAt x := rfl
@[simp] theorem State.hostReset_byteAt (s : State) (x : Nat) : (s.hostReset).byteAt x = s.byteAt x := rfl
@[simp] theorem State.loadEntry_byteAt (s : State) (a : Word) (o : Option (Option (List Word))) (x : Nat) : (s.loadEntry a o).byteAt x = s.byteAt x := rfl

end Sys2Proof.Machine
end

