-- ==== Sys2Proof/Laws/Memory.lean ====
section
/-! SUPPORT. The memory: a read after a write gives the value written, a write leaves every other cell alone, keeps
the canonical form, and lists only the cell written beside those listed before. -/

namespace Sys2Proof.Machine

@[simp] theorem Memory.read_nil (a : Nat) : Memory.read [] a = 0 := rfl

theorem Memory.read_write_ne (m : Memory) (a x : Nat) (v : Byte) (h : x ≠ a) :
    Memory.read (Memory.write m a v) x = Memory.read m x := by
  induction m with
  | nil => simp only [Memory.write]; split <;> simp [Memory.read, Ne.symm h]
  | cons c m ih =>
    obtain ⟨k, u⟩ := c
    simp only [Memory.write]
    split
    · split <;> simp [Memory.read, Ne.symm h]
    · split
      · next e => subst e; split <;> simp [Memory.read, Ne.symm h]
      · simp [Memory.read, ih]

/-- A cell whose address is not listed holds what an unlisted cell holds. -/
theorem Memory.read_unlisted (m : Memory) (a : Nat) (h : ∀ c ∈ m, c.1 ≠ a) : Memory.read m a = Memory.unlisted := by
  induction m with
  | nil => rfl
  | cons c m ih =>
    simp only [Memory.read, if_neg (h c (by simp))]
    exact ih fun d hd => h d (by simp [hd])

theorem Memory.read_write_self (m : Memory) (a : Nat) (v : Byte) (h : Memory.wf m) :
    Memory.read (Memory.write m a v) a = v := by
  induction m with
  | nil => simp only [Memory.write]; split <;> simp_all [Memory.read, Memory.unlisted]
  | cons c m ih =>
    obtain ⟨k, u⟩ := c
    obtain ⟨hs, hz⟩ := h
    obtain ⟨hk, hs⟩ := List.pairwise_cons.mp hs
    have tail_lt : ∀ d ∈ m, k < d.1 := hk
    simp only [Memory.write]
    split
    · next lt =>
      split
      · next e =>
        rw [e]
        refine Memory.read_unlisted _ _ fun d hd => ?_
        rcases List.mem_cons.mp hd with rfl | hd
        · simp; omega
        · have := tail_lt d hd; omega
      · simp [Memory.read]
    · split
      · next e =>
        subst e
        split
        · next e => rw [e]; exact Memory.read_unlisted _ _ fun d hd => by have := tail_lt d hd; omega
        · simp [Memory.read]
      · next ne =>
        simp only [Memory.read, if_neg (Ne.symm ne)]
        exact ih ⟨hs, fun d hd => hz d (by simp [hd])⟩

/-- The cells listed after a write: the one written, or one listed before. -/
theorem Memory.mem_write {m : Memory} {a : Nat} {v : Byte} {c : Host.Cell} (h : c ∈ Memory.write m a v) :
    (c = (a, v) ∧ v ≠ Memory.unlisted) ∨ c ∈ m := by
  induction m with
  | nil => simp only [Memory.write] at h; split at h <;> simp_all
  | cons d m ih =>
    obtain ⟨k, u⟩ := d
    simp only [Memory.write] at h
    split at h
    · split at h
      · exact .inr h
      · rcases List.mem_cons.mp h with rfl | h
        · exact .inl ⟨rfl, ‹_›⟩
        · exact .inr h
    · split at h
      · split at h
        · exact .inr (by simp [h])
        · rcases List.mem_cons.mp h with rfl | h
          · exact .inl ⟨rfl, ‹_›⟩
          · exact .inr (by simp [h])
      · rcases List.mem_cons.mp h with rfl | h
        · exact .inr (by simp)
        · rcases ih h with h | h
          · exact .inl h
          · exact .inr (by simp [h])

/-- A write keeps the canonical form. -/
theorem Memory.write_wf (m : Memory) (a : Nat) (v : Byte) (h : Memory.wf m) : Memory.wf (Memory.write m a v) := by
  refine ⟨?_, fun c hc => ?_⟩
  · induction m with
    | nil => simp only [Memory.write]; split <;> simp
    | cons d m ih =>
      obtain ⟨k, u⟩ := d
      obtain ⟨hs, hz⟩ := h
      obtain ⟨hk, hm⟩ := List.pairwise_cons.mp hs
      simp only [Memory.write]
      split
      · next lt =>
        split
        · exact hs
        · refine List.pairwise_cons.mpr ⟨fun e he => ?_, hs⟩
          rcases List.mem_cons.mp he with rfl | he
          · exact lt
          · exact Nat.lt_trans lt (hk e he)
      · split
        · next e =>
          subst e
          split
          · exact hm
          · exact List.pairwise_cons.mpr ⟨hk, hm⟩
        · refine List.pairwise_cons.mpr ⟨fun e he => ?_, ih ⟨hm, fun e he => hz e (by simp [he])⟩⟩
          rcases Memory.mem_write he with ⟨rfl, -⟩ | he
          · simp only; omega
          · exact hk e he
  · rcases Memory.mem_write hc with ⟨rfl, h'⟩ | hc
    · exact h'
    · exact h.2 c hc

theorem State.byteAt_setByte_ne (s : State) (a x : Nat) (v : Byte) (h : x ≠ a) :
    (s.setByte a v).byteAt x = s.byteAt x := Memory.read_write_ne _ _ _ _ h

theorem State.byteAt_setByte_self (s : State) (a : Nat) (v : Byte) (h : Memory.wf s.mem) :
    (s.setByte a v).byteAt a = v := Memory.read_write_self _ _ _ h

@[simp] theorem State.placeBytes_config (s : State) (a : Nat) (bs : List Byte) :
    (s.placeBytes a bs).config = s.config := by
  induction bs generalizing s a with
  | nil => rfl
  | cons b bs ih => simp only [State.placeBytes, ih]; split <;> rfl

/-- Placing bytes changes nothing but memory. -/
theorem State.placeBytes_eq (s : State) (a : Nat) (bs : List Byte) :
    s.placeBytes a bs = { s with mem := (s.placeBytes a bs).mem } := by
  induction bs generalizing s a with
  | nil => rfl
  | cons b bs ih =>
    simp only [State.placeBytes]
    rw [ih]
    split <;> rfl

theorem State.placeBytes_wf (s : State) (a : Nat) (bs : List Byte) (h : Memory.wf s.mem) :
    Memory.wf (s.placeBytes a bs).mem := by
  induction bs generalizing s a with
  | nil => exact h
  | cons b bs ih =>
    simp only [State.placeBytes]
    apply ih
    split
    · exact Memory.write_wf _ _ _ h
    · exact h

/-- A cell outside the range of placed bytes keeps its value. -/
theorem State.byteAt_placeBytes_outside (s : State) (a x : Nat) (bs : List Byte) (h : x < a ∨ a + bs.length ≤ x) :
    (s.placeBytes a bs).byteAt x = s.byteAt x := by
  induction bs generalizing s a with
  | nil => rfl
  | cons b bs ih =>
    simp only [List.length_cons] at h
    simp only [State.placeBytes]
    rw [ih _ _ (by omega)]
    split
    · exact State.byteAt_setByte_ne _ _ _ _ (by omega)
    · rfl

/-- A cell inside the range of placed bytes holds its byte. -/
theorem State.byteAt_placeBytes_inside (s : State) (a k : Nat) (bs : List Byte) (hm : Memory.wf s.mem)
    (h : k < bs.length) (hr : a + k < s.config.memSize) : (s.placeBytes a bs).byteAt (a + k) = bs[k] := by
  induction bs generalizing s a k with
  | nil => simp at h
  | cons b bs ih =>
    simp only [State.placeBytes]
    cases k with
    | zero =>
      rw [State.byteAt_placeBytes_outside _ _ _ _ (by omega), if_pos (by omega)]
      exact State.byteAt_setByte_self _ _ _ hm
    | succ k =>
      simp only [List.length_cons] at h
      have key := ih (if a < s.config.memSize then s.setByte a b else s) (a + 1) k
        (by split
            · exact Memory.write_wf _ _ _ hm
            · exact hm)
        (by omega) (by split <;> (show a + 1 + k < s.config.memSize; omega))
      rw [show a + (k + 1) = a + 1 + k by omega]
      simpa using key

end Sys2Proof.Machine
end

