-- ==== Sys2Proof/Laws/Regs.lean ====
section
/-! SUPPORT. Registers: a read after a write, at both widths, with the byte halves of a word (R10, R12). -/

namespace Sys2Proof.Machine

@[simp] theorem Regs.get_zero (r : Reg16) : Regs.zero.get r = 0 := by cases r <;> rfl

@[simp] theorem Regs.get_set_self (g : Regs) (r : Reg16) (v : Word) : (g.set r v).get r = v := by
  cases r <;> rfl

theorem Regs.get_set_ne (g : Regs) (r q : Reg16) (v : Word) (h : q ≠ r) : (g.set r v).get q = g.get q := by
  cases r <;> cases q <;> first | rfl | exact absurd rfl h

theorem Regs.get_set (g : Regs) (r q : Reg16) (v : Word) : (g.set r v).get q = if q = r then v else g.get q := by
  split
  · next h => subst h; exact Regs.get_set_self _ _ _
  · next h => exact Regs.get_set_ne _ _ _ _ h

@[simp] theorem Regs.set_get_self (g : Regs) (r : Reg16) : g.set r (g.get r) = g := by cases r <;> rfl

@[simp] theorem Regs.set_set_self (g : Regs) (r : Reg16) (v u : Word) : (g.set r v).set r u = g.set r u := by
  cases r <;> rfl

/-- Two register files with the same reads are the same. -/
theorem Regs.ext_get {g h : Regs} (e : ∀ r, g.get r = h.get r) : g = h := by
  cases g; cases h
  simp only [Regs.mk.injEq]
  exact ⟨e .ax, e .cx, e .dx, e .bx, e .sp, e .bp, e .si, e .di⟩

theorem State.reg16_setReg16 (s : State) (r q : Reg16) (v : Word) :
    (s.setReg16 r v).reg16 q = if q = r then v else s.reg16 q := Regs.get_set _ _ _ _

/-- The half of a word a byte register is. -/
theorem State.reg8_eq (s : State) (r : Reg8) :
    s.reg8 r = if r.isHigh then hiByte (s.reg16 r.parent) else loByte (s.reg16 r.parent) := rfl

theorem State.reg16_setReg8_ne (s : State) (r : Reg8) (q : Reg16) (v : Byte) (h : q ≠ r.parent) :
    (s.setReg8 r v).reg16 q = s.reg16 q := Regs.get_set_ne _ _ _ _ h

theorem State.reg16_setReg8_parent (s : State) (r : Reg8) (v : Byte) :
    (s.setReg8 r v).reg16 r.parent =
      if r.isHigh then joinBytes v (loByte (s.reg16 r.parent)) else joinBytes (hiByte (s.reg16 r.parent)) v :=
  Regs.get_set_self _ _ _

/-- A byte register is determined by its word and its half. -/
theorem Reg8.eq_of_parent {r q : Reg8} (h : q.parent = r.parent) (g : q.isHigh = r.isHigh) : q = r := by
  cases r <;> cases q <;> first | rfl | exact absurd h (by decide) | exact absurd g (by decide)

theorem State.reg8_setReg8 (s : State) (r q : Reg8) (v : Byte) :
    (s.setReg8 r v).reg8 q = if q = r then v else s.reg8 q := by
  by_cases hp : q.parent = r.parent
  · rw [State.reg8_eq, State.reg8_eq s, hp, State.reg16_setReg8_parent]
    by_cases hq : q = r
    · subst hq; cases q.isHigh <;> simp
    · have hh : q.isHigh ≠ r.isHigh := fun g => hq (Reg8.eq_of_parent hp g)
      rw [if_neg hq]
      cases h1 : q.isHigh <;> cases h2 : r.isHigh <;> simp_all
  · rw [if_neg (fun h => hp (by rw [h])), State.reg8_eq, State.reg8_eq s, State.reg16_setReg8_ne _ _ _ _ hp]

@[simp] theorem State.reg8_setReg8_self (s : State) (r : Reg8) (v : Byte) : (s.setReg8 r v).reg8 r = v := by
  rw [State.reg8_setReg8, if_pos rfl]

theorem State.reg8_setReg16 (s : State) (r : Reg16) (q : Reg8) (v : Word) :
    (s.setReg16 r v).reg8 q =
      if q.parent = r then (if q.isHigh then hiByte v else loByte v) else s.reg8 q := by
  rw [State.reg8_eq, State.reg8_eq s, State.reg16_setReg16]
  by_cases h : q.parent = r <;> simp only [h, if_true, if_false]

/-- Writing a register's own value back changes nothing. -/
@[simp] theorem State.setReg16_self (s : State) (r : Reg16) : s.setReg16 r (s.reg16 r) = s := by
  simp [State.setReg16, State.reg16]

@[simp] theorem State.setReg8_self (s : State) (r : Reg8) : s.setReg8 r (s.reg8 r) = s := by
  have h : (if r.isHigh then joinBytes (s.reg8 r) (loByte (s.reg16 r.parent))
      else joinBytes (hiByte (s.reg16 r.parent)) (s.reg8 r)) = s.reg16 r.parent := by
    rw [State.reg8_eq]; cases r.isHigh <;> simp
  rw [State.setReg8, h, State.setReg16_self]

/-- A word with byte halves is its high half joined to its low half. -/
theorem State.reg16_eq_join (s : State) (r : Reg8) (h : r.isHigh = true) (q : Reg8) (hq : q.isHigh = false)
    (hp : q.parent = r.parent) : s.reg16 r.parent = joinBytes (s.reg8 r) (s.reg8 q) := by
  rw [State.reg8_eq, State.reg8_eq, h, hq, hp]
  simp

end Sys2Proof.Machine
end

