-- ==== Sys2Proof/Laws/Operands.lean ====
section
/-! SUPPORT. Memory access and the operand resolver: one lemma for an access whose cells exist, one for an access
that names a missing cell, and what a write can change. -/

namespace Sys2Proof.Machine

@[simp] theorem State.attempt_ok {α : Type} (s : State) (a : α) (k : α → StepOutcome) :
    s.attempt (.ok a) k = k a := rfl

@[simp] theorem State.attempt_error {α : Type} (s : State) (f : FaultRecord) (k : α → StepOutcome) :
    s.attempt (.error f) k = .next (s.raise f) := rfl

/-- What an attempt that answers a next state can have done: raised, from the state it started in, or gone on. -/
theorem State.attempt_next {α : Type} {s t : State} {x : Except FaultRecord α} {k : α → StepOutcome}
    (h : s.attempt x k = .next t) : (∃ f, x = .error f ∧ t = s.raise f) ∨ (∃ a, x = .ok a ∧ k a = .next t) := by
  cases x with
  | error f => exact .inl ⟨f, rfl, by simpa [eq_comm] using h⟩
  | ok a => exact .inr ⟨a, rfl, h⟩

/-! ### MemRead and MemWrite -/

theorem State.memRead8_ok {s : State} {a : Nat} (h : s.badCell 1 a = none) : s.memRead8 a = .ok (s.byteAt a) := by
  simp only [State.badCell] at h
  split at h
  · cases h
  · simp [State.memRead8, Nat.lt_of_not_le ‹_›]

theorem State.memRead8_error {s : State} {a x : Nat} (h : s.badCell 1 a = some x) :
    s.memRead8 a = .error (outOfRange x) := by
  simp only [State.badCell] at h
  split at h
  · cases h; simp [State.memRead8, Nat.not_lt.mpr ‹_›]
  · simp at h

theorem State.memRead16_ok {s : State} {a : Nat} (h : s.badCell 2 a = none) :
    s.memRead16 a = .ok (joinBytes (s.byteAt (a + 1)) (s.byteAt a)) := by
  simp only [State.badCell] at h
  split at h
  · cases h
  · split at h
    · cases h
    · next h1 h2 =>
      have : a + 1 < s.config.memSize := Nat.lt_of_not_le fun g => h2 ⟨trivial, g⟩
      simp only [State.memRead16]; rw [if_pos (by omega), if_pos this]

theorem State.memRead16_error {s : State} {a x : Nat} (h : s.badCell 2 a = some x) :
    s.memRead16 a = .error (outOfRange x) := by
  simp only [State.badCell] at h
  split at h
  · cases h; simp only [State.memRead16]; rw [if_neg (by omega)]
  · split at h
    · cases h; simp only [State.memRead16]; rw [if_pos (by omega), if_neg (by omega)]
    · cases h

theorem State.memWrite8_ok {s : State} {a : Nat} {v : Byte} (h : s.badCell 1 a = none) :
    s.memWrite8 a v = .ok (s.setByte a v) := by
  simp only [State.badCell] at h
  split at h
  · cases h
  · simp [State.memWrite8, Nat.lt_of_not_le ‹_›]

theorem State.memWrite8_error {s : State} {a x : Nat} {v : Byte} (h : s.badCell 1 a = some x) :
    s.memWrite8 a v = .error (outOfRange x) := by
  simp only [State.badCell] at h
  split at h
  · cases h; simp [State.memWrite8, Nat.not_lt.mpr ‹_›]
  · simp at h

theorem State.memWrite16_ok {s : State} {a : Nat} {v : Word} (h : s.badCell 2 a = none) :
    s.memWrite16 a v = .ok ((s.setByte a (loByte v)).setByte (a + 1) (hiByte v)) := by
  simp only [State.badCell] at h
  split at h
  · cases h
  · split at h
    · cases h
    · next h1 h2 =>
      have : a + 1 < s.config.memSize := Nat.lt_of_not_le fun g => h2 ⟨trivial, g⟩
      simp only [State.memWrite16]; rw [if_pos (by omega), if_pos this]

theorem State.memWrite16_error {s : State} {a x : Nat} {v : Word} (h : s.badCell 2 a = some x) :
    s.memWrite16 a v = .error (outOfRange x) := by
  simp only [State.badCell] at h
  split at h
  · cases h; simp only [State.memWrite16]; rw [if_neg (by omega)]
  · split at h
    · cases h; simp only [State.memWrite16]; rw [if_pos (by omega), if_neg (by omega)]
    · cases h

/-! ### Locations -/

/-- The first missing cell of a byte-wide location, if one is missing. -/
def State.locBad8 (s : State) (l : Loc8) : Option Nat := (s.locAddr8 l).bind fun a => s.badCell 1 a

/-- Reading a location whose cells exist gives its value. -/
theorem State.readLoc8_ok {s : State} {l : Loc8} (h : s.locBad8 l = none) :
    s.readLoc8 l = .ok (s.locValue8 l) := by
  cases l with
  | reg r => rfl
  | direct a => exact State.memRead8_ok h
  | base b => exact State.memRead8_ok h

theorem State.readLoc8_error {s : State} {l : Loc8} {x : Nat} (h : s.locBad8 l = some x) :
    s.readLoc8 l = .error (outOfRange x) := by
  cases l with
  | reg r => simp [State.locBad8, State.locAddr8] at h
  | direct a => exact State.memRead8_error h
  | base b => exact State.memRead8_error h

/-- Writing a location whose cells exist puts the value there. -/
theorem State.writeLoc8_ok {s : State} {l : Loc8} {v : Byte} (h : s.locBad8 l = none) :
    s.writeLoc8 l v = .ok (s.putLoc8 l v) := by
  cases l with
  | reg r => rfl
  | direct a => exact State.memWrite8_ok h
  | base b => exact State.memWrite8_ok h

theorem State.writeLoc8_error {s : State} {l : Loc8} {v : Byte} {x : Nat} (h : s.locBad8 l = some x) :
    s.writeLoc8 l v = .error (outOfRange x) := by
  cases l with
  | reg r => simp [State.locBad8, State.locAddr8] at h
  | direct a => exact State.memWrite8_error h
  | base b => exact State.memWrite8_error h

/-- A location exists whole, or names its first missing cell. -/
theorem State.locBad8_cases (s : State) (l : Loc8) :
    s.locBad8 l = none ∨ ∃ x, s.locBad8 l = some x := by
  cases h : s.locBad8 l with
  | none => exact .inl rfl
  | some x => exact .inr ⟨x, rfl⟩

@[simp] theorem State.putLoc8_ip (s : State) (l : Loc8) (v : Byte) : (s.putLoc8 l v).ip = s.ip := by
  cases l <;> rfl
@[simp] theorem State.putLoc8_flags (s : State) (l : Loc8) (v : Byte) : (s.putLoc8 l v).flags = s.flags := by
  cases l <;> rfl
@[simp] theorem State.putLoc8_run (s : State) (l : Loc8) (v : Byte) : (s.putLoc8 l v).run = s.run := by
  cases l <;> rfl
@[simp] theorem State.putLoc8_fault (s : State) (l : Loc8) (v : Byte) : (s.putLoc8 l v).fault = s.fault := by
  cases l <;> rfl
@[simp] theorem State.putLoc8_entry (s : State) (l : Loc8) (v : Byte) : (s.putLoc8 l v).entry = s.entry := by
  cases l <;> rfl
@[simp] theorem State.putLoc8_config (s : State) (l : Loc8) (v : Byte) : (s.putLoc8 l v).config = s.config := by
  cases l <;> rfl

/-- The first missing cell of a word-wide location, if one is missing. -/
def State.locBad16 (s : State) (l : Loc16) : Option Nat := (s.locAddr16 l).bind fun a => s.badCell 2 a

/-- Reading a location whose cells exist gives its value. -/
theorem State.readLoc16_ok {s : State} {l : Loc16} (h : s.locBad16 l = none) :
    s.readLoc16 l = .ok (s.locValue16 l) := by
  cases l with
  | reg r => rfl
  | direct a => exact State.memRead16_ok h
  | base b => exact State.memRead16_ok h

theorem State.readLoc16_error {s : State} {l : Loc16} {x : Nat} (h : s.locBad16 l = some x) :
    s.readLoc16 l = .error (outOfRange x) := by
  cases l with
  | reg r => simp [State.locBad16, State.locAddr16] at h
  | direct a => exact State.memRead16_error h
  | base b => exact State.memRead16_error h

/-- Writing a location whose cells exist puts the value there. -/
theorem State.writeLoc16_ok {s : State} {l : Loc16} {v : Word} (h : s.locBad16 l = none) :
    s.writeLoc16 l v = .ok (s.putLoc16 l v) := by
  cases l with
  | reg r => rfl
  | direct a => exact State.memWrite16_ok h
  | base b => exact State.memWrite16_ok h

theorem State.writeLoc16_error {s : State} {l : Loc16} {v : Word} {x : Nat} (h : s.locBad16 l = some x) :
    s.writeLoc16 l v = .error (outOfRange x) := by
  cases l with
  | reg r => simp [State.locBad16, State.locAddr16] at h
  | direct a => exact State.memWrite16_error h
  | base b => exact State.memWrite16_error h

/-- A location exists whole, or names its first missing cell. -/
theorem State.locBad16_cases (s : State) (l : Loc16) :
    s.locBad16 l = none ∨ ∃ x, s.locBad16 l = some x := by
  cases h : s.locBad16 l with
  | none => exact .inl rfl
  | some x => exact .inr ⟨x, rfl⟩

@[simp] theorem State.putLoc16_ip (s : State) (l : Loc16) (v : Word) : (s.putLoc16 l v).ip = s.ip := by
  cases l <;> rfl
@[simp] theorem State.putLoc16_flags (s : State) (l : Loc16) (v : Word) : (s.putLoc16 l v).flags = s.flags := by
  cases l <;> rfl
@[simp] theorem State.putLoc16_run (s : State) (l : Loc16) (v : Word) : (s.putLoc16 l v).run = s.run := by
  cases l <;> rfl
@[simp] theorem State.putLoc16_fault (s : State) (l : Loc16) (v : Word) : (s.putLoc16 l v).fault = s.fault := by
  cases l <;> rfl
@[simp] theorem State.putLoc16_entry (s : State) (l : Loc16) (v : Word) : (s.putLoc16 l v).entry = s.entry := by
  cases l <;> rfl
@[simp] theorem State.putLoc16_config (s : State) (l : Loc16) (v : Word) : (s.putLoc16 l v).config = s.config := by
  cases l <;> rfl

end Sys2Proof.Machine
end

