-- ==== Sys2Proof/Laws/PerInstr.lean ====
section
/-! SUPPORT. Per-instruction families. `EncodeLength`: the encoding of an instruction has the length of its row. -/

namespace Sys2Proof.Laws.EncodeLength

/-- The encoding has the length R61 and R62 give the instruction, from 1 to 3 bytes. -/
def Statement (i : Instr) : Prop := (encode i).length = i.length ∧ 1 ≤ i.length ∧ i.length ≤ 3

theorem movR8R8 (d r : Reg8) : Statement (.movR8R8 d r) := ⟨rfl, Nat.le_of_ble_eq_true rfl, Nat.le_of_ble_eq_true rfl⟩
theorem movR16R16 (d r : Reg16) : Statement (.movR16R16 d r) := ⟨rfl, Nat.le_of_ble_eq_true rfl, Nat.le_of_ble_eq_true rfl⟩
theorem movR8Base (d : Reg8) (b : Reg16) : Statement (.movR8Base d b) := ⟨rfl, Nat.le_of_ble_eq_true rfl, Nat.le_of_ble_eq_true rfl⟩
theorem movR16Base (d b : Reg16) : Statement (.movR16Base d b) := ⟨rfl, Nat.le_of_ble_eq_true rfl, Nat.le_of_ble_eq_true rfl⟩
theorem movBaseR8 (b : Reg16) (r : Reg8) : Statement (.movBaseR8 b r) := ⟨rfl, Nat.le_of_ble_eq_true rfl, Nat.le_of_ble_eq_true rfl⟩
theorem movBaseR16 (b r : Reg16) : Statement (.movBaseR16 b r) := ⟨rfl, Nat.le_of_ble_eq_true rfl, Nat.le_of_ble_eq_true rfl⟩
theorem movR8Imm8 (d : Reg8) (imm : Byte) : Statement (.movR8Imm8 d imm) := ⟨rfl, Nat.le_of_ble_eq_true rfl, Nat.le_of_ble_eq_true rfl⟩
theorem movR16Imm16 (d : Reg16) (imm : Word) : Statement (.movR16Imm16 d imm) := ⟨rfl, Nat.le_of_ble_eq_true rfl, Nat.le_of_ble_eq_true rfl⟩
theorem addR8R8 (d r : Reg8) : Statement (.addR8R8 d r) := ⟨rfl, Nat.le_of_ble_eq_true rfl, Nat.le_of_ble_eq_true rfl⟩
theorem addR16R16 (d r : Reg16) : Statement (.addR16R16 d r) := ⟨rfl, Nat.le_of_ble_eq_true rfl, Nat.le_of_ble_eq_true rfl⟩
theorem addR8Base (d : Reg8) (b : Reg16) : Statement (.addR8Base d b) := ⟨rfl, Nat.le_of_ble_eq_true rfl, Nat.le_of_ble_eq_true rfl⟩
theorem addR16Base (d b : Reg16) : Statement (.addR16Base d b) := ⟨rfl, Nat.le_of_ble_eq_true rfl, Nat.le_of_ble_eq_true rfl⟩
theorem addBaseR8 (b : Reg16) (r : Reg8) : Statement (.addBaseR8 b r) := ⟨rfl, Nat.le_of_ble_eq_true rfl, Nat.le_of_ble_eq_true rfl⟩
theorem addBaseR16 (b r : Reg16) : Statement (.addBaseR16 b r) := ⟨rfl, Nat.le_of_ble_eq_true rfl, Nat.le_of_ble_eq_true rfl⟩
theorem addR8Imm8 (d : Reg8) (imm : Byte) : Statement (.addR8Imm8 d imm) := ⟨rfl, Nat.le_of_ble_eq_true rfl, Nat.le_of_ble_eq_true rfl⟩
theorem addR16Imm16 (d : Reg16) (imm : Word) : Statement (.addR16Imm16 d imm) := ⟨rfl, Nat.le_of_ble_eq_true rfl, Nat.le_of_ble_eq_true rfl⟩
theorem adcR8R8 (d r : Reg8) : Statement (.adcR8R8 d r) := ⟨rfl, Nat.le_of_ble_eq_true rfl, Nat.le_of_ble_eq_true rfl⟩
theorem adcR16R16 (d r : Reg16) : Statement (.adcR16R16 d r) := ⟨rfl, Nat.le_of_ble_eq_true rfl, Nat.le_of_ble_eq_true rfl⟩
theorem adcR8Base (d : Reg8) (b : Reg16) : Statement (.adcR8Base d b) := ⟨rfl, Nat.le_of_ble_eq_true rfl, Nat.le_of_ble_eq_true rfl⟩
theorem adcR16Base (d b : Reg16) : Statement (.adcR16Base d b) := ⟨rfl, Nat.le_of_ble_eq_true rfl, Nat.le_of_ble_eq_true rfl⟩
theorem adcBaseR8 (b : Reg16) (r : Reg8) : Statement (.adcBaseR8 b r) := ⟨rfl, Nat.le_of_ble_eq_true rfl, Nat.le_of_ble_eq_true rfl⟩
theorem adcBaseR16 (b r : Reg16) : Statement (.adcBaseR16 b r) := ⟨rfl, Nat.le_of_ble_eq_true rfl, Nat.le_of_ble_eq_true rfl⟩
theorem adcR8Imm8 (d : Reg8) (imm : Byte) : Statement (.adcR8Imm8 d imm) := ⟨rfl, Nat.le_of_ble_eq_true rfl, Nat.le_of_ble_eq_true rfl⟩
theorem adcR16Imm16 (d : Reg16) (imm : Word) : Statement (.adcR16Imm16 d imm) := ⟨rfl, Nat.le_of_ble_eq_true rfl, Nat.le_of_ble_eq_true rfl⟩
theorem subR8R8 (d r : Reg8) : Statement (.subR8R8 d r) := ⟨rfl, Nat.le_of_ble_eq_true rfl, Nat.le_of_ble_eq_true rfl⟩
theorem subR16R16 (d r : Reg16) : Statement (.subR16R16 d r) := ⟨rfl, Nat.le_of_ble_eq_true rfl, Nat.le_of_ble_eq_true rfl⟩
theorem subR8Base (d : Reg8) (b : Reg16) : Statement (.subR8Base d b) := ⟨rfl, Nat.le_of_ble_eq_true rfl, Nat.le_of_ble_eq_true rfl⟩
theorem subR16Base (d b : Reg16) : Statement (.subR16Base d b) := ⟨rfl, Nat.le_of_ble_eq_true rfl, Nat.le_of_ble_eq_true rfl⟩
theorem subBaseR8 (b : Reg16) (r : Reg8) : Statement (.subBaseR8 b r) := ⟨rfl, Nat.le_of_ble_eq_true rfl, Nat.le_of_ble_eq_true rfl⟩
theorem subBaseR16 (b r : Reg16) : Statement (.subBaseR16 b r) := ⟨rfl, Nat.le_of_ble_eq_true rfl, Nat.le_of_ble_eq_true rfl⟩
theorem subR8Imm8 (d : Reg8) (imm : Byte) : Statement (.subR8Imm8 d imm) := ⟨rfl, Nat.le_of_ble_eq_true rfl, Nat.le_of_ble_eq_true rfl⟩
theorem subR16Imm16 (d : Reg16) (imm : Word) : Statement (.subR16Imm16 d imm) := ⟨rfl, Nat.le_of_ble_eq_true rfl, Nat.le_of_ble_eq_true rfl⟩
theorem sbbR8R8 (d r : Reg8) : Statement (.sbbR8R8 d r) := ⟨rfl, Nat.le_of_ble_eq_true rfl, Nat.le_of_ble_eq_true rfl⟩
theorem sbbR16R16 (d r : Reg16) : Statement (.sbbR16R16 d r) := ⟨rfl, Nat.le_of_ble_eq_true rfl, Nat.le_of_ble_eq_true rfl⟩
theorem sbbR8Base (d : Reg8) (b : Reg16) : Statement (.sbbR8Base d b) := ⟨rfl, Nat.le_of_ble_eq_true rfl, Nat.le_of_ble_eq_true rfl⟩
theorem sbbR16Base (d b : Reg16) : Statement (.sbbR16Base d b) := ⟨rfl, Nat.le_of_ble_eq_true rfl, Nat.le_of_ble_eq_true rfl⟩
theorem sbbBaseR8 (b : Reg16) (r : Reg8) : Statement (.sbbBaseR8 b r) := ⟨rfl, Nat.le_of_ble_eq_true rfl, Nat.le_of_ble_eq_true rfl⟩
theorem sbbBaseR16 (b r : Reg16) : Statement (.sbbBaseR16 b r) := ⟨rfl, Nat.le_of_ble_eq_true rfl, Nat.le_of_ble_eq_true rfl⟩
theorem sbbR8Imm8 (d : Reg8) (imm : Byte) : Statement (.sbbR8Imm8 d imm) := ⟨rfl, Nat.le_of_ble_eq_true rfl, Nat.le_of_ble_eq_true rfl⟩
theorem sbbR16Imm16 (d : Reg16) (imm : Word) : Statement (.sbbR16Imm16 d imm) := ⟨rfl, Nat.le_of_ble_eq_true rfl, Nat.le_of_ble_eq_true rfl⟩
theorem andR8R8 (d r : Reg8) : Statement (.andR8R8 d r) := ⟨rfl, Nat.le_of_ble_eq_true rfl, Nat.le_of_ble_eq_true rfl⟩
theorem andR16R16 (d r : Reg16) : Statement (.andR16R16 d r) := ⟨rfl, Nat.le_of_ble_eq_true rfl, Nat.le_of_ble_eq_true rfl⟩
theorem andR8Base (d : Reg8) (b : Reg16) : Statement (.andR8Base d b) := ⟨rfl, Nat.le_of_ble_eq_true rfl, Nat.le_of_ble_eq_true rfl⟩
theorem andR16Base (d b : Reg16) : Statement (.andR16Base d b) := ⟨rfl, Nat.le_of_ble_eq_true rfl, Nat.le_of_ble_eq_true rfl⟩
theorem andBaseR8 (b : Reg16) (r : Reg8) : Statement (.andBaseR8 b r) := ⟨rfl, Nat.le_of_ble_eq_true rfl, Nat.le_of_ble_eq_true rfl⟩
theorem andBaseR16 (b r : Reg16) : Statement (.andBaseR16 b r) := ⟨rfl, Nat.le_of_ble_eq_true rfl, Nat.le_of_ble_eq_true rfl⟩
theorem andR8Imm8 (d : Reg8) (imm : Byte) : Statement (.andR8Imm8 d imm) := ⟨rfl, Nat.le_of_ble_eq_true rfl, Nat.le_of_ble_eq_true rfl⟩
theorem andR16Imm16 (d : Reg16) (imm : Word) : Statement (.andR16Imm16 d imm) := ⟨rfl, Nat.le_of_ble_eq_true rfl, Nat.le_of_ble_eq_true rfl⟩
theorem orR8R8 (d r : Reg8) : Statement (.orR8R8 d r) := ⟨rfl, Nat.le_of_ble_eq_true rfl, Nat.le_of_ble_eq_true rfl⟩
theorem orR16R16 (d r : Reg16) : Statement (.orR16R16 d r) := ⟨rfl, Nat.le_of_ble_eq_true rfl, Nat.le_of_ble_eq_true rfl⟩
theorem orR8Base (d : Reg8) (b : Reg16) : Statement (.orR8Base d b) := ⟨rfl, Nat.le_of_ble_eq_true rfl, Nat.le_of_ble_eq_true rfl⟩
theorem orR16Base (d b : Reg16) : Statement (.orR16Base d b) := ⟨rfl, Nat.le_of_ble_eq_true rfl, Nat.le_of_ble_eq_true rfl⟩
theorem orBaseR8 (b : Reg16) (r : Reg8) : Statement (.orBaseR8 b r) := ⟨rfl, Nat.le_of_ble_eq_true rfl, Nat.le_of_ble_eq_true rfl⟩
theorem orBaseR16 (b r : Reg16) : Statement (.orBaseR16 b r) := ⟨rfl, Nat.le_of_ble_eq_true rfl, Nat.le_of_ble_eq_true rfl⟩
theorem orR8Imm8 (d : Reg8) (imm : Byte) : Statement (.orR8Imm8 d imm) := ⟨rfl, Nat.le_of_ble_eq_true rfl, Nat.le_of_ble_eq_true rfl⟩
theorem orR16Imm16 (d : Reg16) (imm : Word) : Statement (.orR16Imm16 d imm) := ⟨rfl, Nat.le_of_ble_eq_true rfl, Nat.le_of_ble_eq_true rfl⟩
theorem xorR8R8 (d r : Reg8) : Statement (.xorR8R8 d r) := ⟨rfl, Nat.le_of_ble_eq_true rfl, Nat.le_of_ble_eq_true rfl⟩
theorem xorR16R16 (d r : Reg16) : Statement (.xorR16R16 d r) := ⟨rfl, Nat.le_of_ble_eq_true rfl, Nat.le_of_ble_eq_true rfl⟩
theorem xorR8Base (d : Reg8) (b : Reg16) : Statement (.xorR8Base d b) := ⟨rfl, Nat.le_of_ble_eq_true rfl, Nat.le_of_ble_eq_true rfl⟩
theorem xorR16Base (d b : Reg16) : Statement (.xorR16Base d b) := ⟨rfl, Nat.le_of_ble_eq_true rfl, Nat.le_of_ble_eq_true rfl⟩
theorem xorBaseR8 (b : Reg16) (r : Reg8) : Statement (.xorBaseR8 b r) := ⟨rfl, Nat.le_of_ble_eq_true rfl, Nat.le_of_ble_eq_true rfl⟩
theorem xorBaseR16 (b r : Reg16) : Statement (.xorBaseR16 b r) := ⟨rfl, Nat.le_of_ble_eq_true rfl, Nat.le_of_ble_eq_true rfl⟩
theorem xorR8Imm8 (d : Reg8) (imm : Byte) : Statement (.xorR8Imm8 d imm) := ⟨rfl, Nat.le_of_ble_eq_true rfl, Nat.le_of_ble_eq_true rfl⟩
theorem xorR16Imm16 (d : Reg16) (imm : Word) : Statement (.xorR16Imm16 d imm) := ⟨rfl, Nat.le_of_ble_eq_true rfl, Nat.le_of_ble_eq_true rfl⟩
theorem cmpR8R8 (d r : Reg8) : Statement (.cmpR8R8 d r) := ⟨rfl, Nat.le_of_ble_eq_true rfl, Nat.le_of_ble_eq_true rfl⟩
theorem cmpR16R16 (d r : Reg16) : Statement (.cmpR16R16 d r) := ⟨rfl, Nat.le_of_ble_eq_true rfl, Nat.le_of_ble_eq_true rfl⟩
theorem cmpR8Base (d : Reg8) (b : Reg16) : Statement (.cmpR8Base d b) := ⟨rfl, Nat.le_of_ble_eq_true rfl, Nat.le_of_ble_eq_true rfl⟩
theorem cmpR16Base (d b : Reg16) : Statement (.cmpR16Base d b) := ⟨rfl, Nat.le_of_ble_eq_true rfl, Nat.le_of_ble_eq_true rfl⟩
theorem cmpBaseR8 (b : Reg16) (r : Reg8) : Statement (.cmpBaseR8 b r) := ⟨rfl, Nat.le_of_ble_eq_true rfl, Nat.le_of_ble_eq_true rfl⟩
theorem cmpBaseR16 (b r : Reg16) : Statement (.cmpBaseR16 b r) := ⟨rfl, Nat.le_of_ble_eq_true rfl, Nat.le_of_ble_eq_true rfl⟩
theorem cmpR8Imm8 (d : Reg8) (imm : Byte) : Statement (.cmpR8Imm8 d imm) := ⟨rfl, Nat.le_of_ble_eq_true rfl, Nat.le_of_ble_eq_true rfl⟩
theorem cmpR16Imm16 (d : Reg16) (imm : Word) : Statement (.cmpR16Imm16 d imm) := ⟨rfl, Nat.le_of_ble_eq_true rfl, Nat.le_of_ble_eq_true rfl⟩
theorem movR8Addr (d : Reg8) (a : Word) : Statement (.movR8Addr d a) := ⟨rfl, Nat.le_of_ble_eq_true rfl, Nat.le_of_ble_eq_true rfl⟩
theorem movR16Addr (d : Reg16) (a : Word) : Statement (.movR16Addr d a) := ⟨rfl, Nat.le_of_ble_eq_true rfl, Nat.le_of_ble_eq_true rfl⟩
theorem movAddrR8 (a : Word) (r : Reg8) : Statement (.movAddrR8 a r) := ⟨rfl, Nat.le_of_ble_eq_true rfl, Nat.le_of_ble_eq_true rfl⟩
theorem movAddrR16 (a : Word) (r : Reg16) : Statement (.movAddrR16 a r) := ⟨rfl, Nat.le_of_ble_eq_true rfl, Nat.le_of_ble_eq_true rfl⟩
theorem incR8 (r : Reg8) : Statement (.incR8 r) := ⟨rfl, Nat.le_of_ble_eq_true rfl, Nat.le_of_ble_eq_true rfl⟩
theorem incR16 (r : Reg16) : Statement (.incR16 r) := ⟨rfl, Nat.le_of_ble_eq_true rfl, Nat.le_of_ble_eq_true rfl⟩
theorem decR8 (r : Reg8) : Statement (.decR8 r) := ⟨rfl, Nat.le_of_ble_eq_true rfl, Nat.le_of_ble_eq_true rfl⟩
theorem decR16 (r : Reg16) : Statement (.decR16 r) := ⟨rfl, Nat.le_of_ble_eq_true rfl, Nat.le_of_ble_eq_true rfl⟩
theorem notR8 (r : Reg8) : Statement (.notR8 r) := ⟨rfl, Nat.le_of_ble_eq_true rfl, Nat.le_of_ble_eq_true rfl⟩
theorem notR16 (r : Reg16) : Statement (.notR16 r) := ⟨rfl, Nat.le_of_ble_eq_true rfl, Nat.le_of_ble_eq_true rfl⟩
theorem negR8 (r : Reg8) : Statement (.negR8 r) := ⟨rfl, Nat.le_of_ble_eq_true rfl, Nat.le_of_ble_eq_true rfl⟩
theorem negR16 (r : Reg16) : Statement (.negR16 r) := ⟨rfl, Nat.le_of_ble_eq_true rfl, Nat.le_of_ble_eq_true rfl⟩
theorem mulR8 (r : Reg8) : Statement (.mulR8 r) := ⟨rfl, Nat.le_of_ble_eq_true rfl, Nat.le_of_ble_eq_true rfl⟩
theorem mulR16 (r : Reg16) : Statement (.mulR16 r) := ⟨rfl, Nat.le_of_ble_eq_true rfl, Nat.le_of_ble_eq_true rfl⟩
theorem divR8 (r : Reg8) : Statement (.divR8 r) := ⟨rfl, Nat.le_of_ble_eq_true rfl, Nat.le_of_ble_eq_true rfl⟩
theorem divR16 (r : Reg16) : Statement (.divR16 r) := ⟨rfl, Nat.le_of_ble_eq_true rfl, Nat.le_of_ble_eq_true rfl⟩
theorem shlR8One (r : Reg8) : Statement (.shlR8One r) := ⟨rfl, Nat.le_of_ble_eq_true rfl, Nat.le_of_ble_eq_true rfl⟩
theorem shlR8Cl (r : Reg8) : Statement (.shlR8Cl r) := ⟨rfl, Nat.le_of_ble_eq_true rfl, Nat.le_of_ble_eq_true rfl⟩
theorem shlR8Imm8 (r : Reg8) (n : Byte) : Statement (.shlR8Imm8 r n) := ⟨rfl, Nat.le_of_ble_eq_true rfl, Nat.le_of_ble_eq_true rfl⟩
theorem shlR16One (r : Reg16) : Statement (.shlR16One r) := ⟨rfl, Nat.le_of_ble_eq_true rfl, Nat.le_of_ble_eq_true rfl⟩
theorem shlR16Cl (r : Reg16) : Statement (.shlR16Cl r) := ⟨rfl, Nat.le_of_ble_eq_true rfl, Nat.le_of_ble_eq_true rfl⟩
theorem shlR16Imm8 (r : Reg16) (n : Byte) : Statement (.shlR16Imm8 r n) := ⟨rfl, Nat.le_of_ble_eq_true rfl, Nat.le_of_ble_eq_true rfl⟩
theorem shrR8One (r : Reg8) : Statement (.shrR8One r) := ⟨rfl, Nat.le_of_ble_eq_true rfl, Nat.le_of_ble_eq_true rfl⟩
theorem shrR8Cl (r : Reg8) : Statement (.shrR8Cl r) := ⟨rfl, Nat.le_of_ble_eq_true rfl, Nat.le_of_ble_eq_true rfl⟩
theorem shrR8Imm8 (r : Reg8) (n : Byte) : Statement (.shrR8Imm8 r n) := ⟨rfl, Nat.le_of_ble_eq_true rfl, Nat.le_of_ble_eq_true rfl⟩
theorem shrR16One (r : Reg16) : Statement (.shrR16One r) := ⟨rfl, Nat.le_of_ble_eq_true rfl, Nat.le_of_ble_eq_true rfl⟩
theorem shrR16Cl (r : Reg16) : Statement (.shrR16Cl r) := ⟨rfl, Nat.le_of_ble_eq_true rfl, Nat.le_of_ble_eq_true rfl⟩
theorem shrR16Imm8 (r : Reg16) (n : Byte) : Statement (.shrR16Imm8 r n) := ⟨rfl, Nat.le_of_ble_eq_true rfl, Nat.le_of_ble_eq_true rfl⟩
theorem jo (rel : Byte) : Statement (.jo rel) := ⟨rfl, Nat.le_of_ble_eq_true rfl, Nat.le_of_ble_eq_true rfl⟩
theorem jno (rel : Byte) : Statement (.jno rel) := ⟨rfl, Nat.le_of_ble_eq_true rfl, Nat.le_of_ble_eq_true rfl⟩
theorem jb (rel : Byte) : Statement (.jb rel) := ⟨rfl, Nat.le_of_ble_eq_true rfl, Nat.le_of_ble_eq_true rfl⟩
theorem jnb (rel : Byte) : Statement (.jnb rel) := ⟨rfl, Nat.le_of_ble_eq_true rfl, Nat.le_of_ble_eq_true rfl⟩
theorem jz (rel : Byte) : Statement (.jz rel) := ⟨rfl, Nat.le_of_ble_eq_true rfl, Nat.le_of_ble_eq_true rfl⟩
theorem jnz (rel : Byte) : Statement (.jnz rel) := ⟨rfl, Nat.le_of_ble_eq_true rfl, Nat.le_of_ble_eq_true rfl⟩
theorem jbe (rel : Byte) : Statement (.jbe rel) := ⟨rfl, Nat.le_of_ble_eq_true rfl, Nat.le_of_ble_eq_true rfl⟩
theorem ja (rel : Byte) : Statement (.ja rel) := ⟨rfl, Nat.le_of_ble_eq_true rfl, Nat.le_of_ble_eq_true rfl⟩
theorem js (rel : Byte) : Statement (.js rel) := ⟨rfl, Nat.le_of_ble_eq_true rfl, Nat.le_of_ble_eq_true rfl⟩
theorem jns (rel : Byte) : Statement (.jns rel) := ⟨rfl, Nat.le_of_ble_eq_true rfl, Nat.le_of_ble_eq_true rfl⟩
theorem jl (rel : Byte) : Statement (.jl rel) := ⟨rfl, Nat.le_of_ble_eq_true rfl, Nat.le_of_ble_eq_true rfl⟩
theorem jge (rel : Byte) : Statement (.jge rel) := ⟨rfl, Nat.le_of_ble_eq_true rfl, Nat.le_of_ble_eq_true rfl⟩
theorem jle (rel : Byte) : Statement (.jle rel) := ⟨rfl, Nat.le_of_ble_eq_true rfl, Nat.le_of_ble_eq_true rfl⟩
theorem jg (rel : Byte) : Statement (.jg rel) := ⟨rfl, Nat.le_of_ble_eq_true rfl, Nat.le_of_ble_eq_true rfl⟩
theorem jmp (rel : Byte) : Statement (.jmp rel) := ⟨rfl, Nat.le_of_ble_eq_true rfl, Nat.le_of_ble_eq_true rfl⟩
theorem loop (rel : Byte) : Statement (.loop rel) := ⟨rfl, Nat.le_of_ble_eq_true rfl, Nat.le_of_ble_eq_true rfl⟩
theorem hlt : Statement .hlt := ⟨rfl, Nat.le_of_ble_eq_true rfl, Nat.le_of_ble_eq_true rfl⟩

end Sys2Proof.Laws.EncodeLength
end

