-- ==== Sys2Proof/Laws/Views.lean ====
section
/-! SUPPORT. Instructions and their shapes are the same data: a statement about every instruction is a statement
about every `View`, which has twelve cases. -/

namespace Sys2Proof.Machine

theorem View.instr_view (i : Instr) : i.view.instr = i := by cases i <;> rfl

theorem View.view_instr (v : View) : v.instr.view = v := by
  cases v with
  | two8 op f => cases op <;> cases f <;> rfl
  | two16 op f => cases op <;> cases f <;> rfl
  | load8 d a => rfl
  | load16 d a => rfl
  | store8 a r => rfl
  | store16 a r => rfl
  | unary8 op r => cases op <;> rfl
  | unary16 op r => cases op <;> rfl
  | shift8 op r c => cases op <;> cases c <;> rfl
  | shift16 op r c => cases op <;> cases c <;> rfl
  | jump op rel => cases op <;> rfl
  | hlt => rfl

/-- To prove something of every instruction, prove it of every shape's row. -/
theorem View.forall_instr {P : Instr → Prop} (h : ∀ v : View, P v.instr) (i : Instr) : P i :=
  View.instr_view i ▸ h i.view

end Sys2Proof.Machine
end

