-- ==== Sys2Proof/Laws/Templates.lean ====
section
/-! SUPPORT. One equation per shape for `exec`, and, for each shared template of Machine/Template.lean, what it
answers when its operands exist, what it answers when a cell is missing, and the inversion: every next state it can
answer. -/

namespace Sys2Proof.Machine

/-! ### Which template an instruction is -/

@[simp] theorem exec_two8_mov (f : Form8) (s : State) :
    exec (.two8 .mov f) s = move8 (dst8 f) (src8 f) (formLength8 f) s := by cases f <;> rfl
@[simp] theorem exec_two8_add (f : Form8) (s : State) :
    exec (.two8 .add f) s = twoOp8 aluAdd (dst8 f) (src8 f) (formLength8 f) s := by cases f <;> rfl
@[simp] theorem exec_two8_adc (f : Form8) (s : State) :
    exec (.two8 .adc f) s = twoOp8 aluAdc (dst8 f) (src8 f) (formLength8 f) s := by cases f <;> rfl
@[simp] theorem exec_two8_sub (f : Form8) (s : State) :
    exec (.two8 .sub f) s = twoOp8 aluSub (dst8 f) (src8 f) (formLength8 f) s := by cases f <;> rfl
@[simp] theorem exec_two8_sbb (f : Form8) (s : State) :
    exec (.two8 .sbb f) s = twoOp8 aluSbb (dst8 f) (src8 f) (formLength8 f) s := by cases f <;> rfl
@[simp] theorem exec_two8_and (f : Form8) (s : State) :
    exec (.two8 .and f) s = twoOp8 aluAnd (dst8 f) (src8 f) (formLength8 f) s := by cases f <;> rfl
@[simp] theorem exec_two8_or (f : Form8) (s : State) :
    exec (.two8 .or f) s = twoOp8 aluOr (dst8 f) (src8 f) (formLength8 f) s := by cases f <;> rfl
@[simp] theorem exec_two8_xor (f : Form8) (s : State) :
    exec (.two8 .xor f) s = twoOp8 aluXor (dst8 f) (src8 f) (formLength8 f) s := by cases f <;> rfl
@[simp] theorem exec_two8_cmp (f : Form8) (s : State) :
    exec (.two8 .cmp f) s = compare8 (dst8 f) (src8 f) (formLength8 f) s := by cases f <;> rfl
@[simp] theorem exec_unary8_inc (r : Reg8) (s : State) :
    exec (.unary8 .inc r) s = unaryOp8 aluInc r s := rfl
@[simp] theorem exec_unary8_dec (r : Reg8) (s : State) :
    exec (.unary8 .dec r) s = unaryOp8 aluDec r s := rfl
@[simp] theorem exec_unary8_not (r : Reg8) (s : State) :
    exec (.unary8 .not r) s = unaryOp8 aluNot r s := rfl
@[simp] theorem exec_unary8_neg (r : Reg8) (s : State) :
    exec (.unary8 .neg r) s = unaryOp8 aluNeg r s := rfl
@[simp] theorem exec_unary8_mul (r : Reg8) (s : State) :
    exec (.unary8 .mul r) s = .next ((mulBy8 (s.reg8 r) s).complete 2) := rfl
@[simp] theorem exec_unary8_div (r : Reg8) (s : State) :
    exec (.unary8 .div r) s = s.attempt (divBy8 (s.reg8 r) s) fun t => .next (t.complete 2) := rfl
@[simp] theorem exec_shift8_shl (r : Reg8) (c : ShiftCount) (s : State) :
    exec (.shift8 .shl r c) s = shiftOp8 aluShl r c (match c with | .one => 2 | .cl => 2 | .imm8 _ => 3) s := by
  cases c <;> rfl
@[simp] theorem exec_shift8_shr (r : Reg8) (c : ShiftCount) (s : State) :
    exec (.shift8 .shr r c) s = shiftOp8 aluShr r c (match c with | .one => 2 | .cl => 2 | .imm8 _ => 3) s := by
  cases c <;> rfl
@[simp] theorem exec_two16_mov (f : Form16) (s : State) :
    exec (.two16 .mov f) s = move16 (dst16 f) (src16 f) (formLength16 f) s := by cases f <;> rfl
@[simp] theorem exec_two16_add (f : Form16) (s : State) :
    exec (.two16 .add f) s = twoOp16 aluAdd (dst16 f) (src16 f) (formLength16 f) s := by cases f <;> rfl
@[simp] theorem exec_two16_adc (f : Form16) (s : State) :
    exec (.two16 .adc f) s = twoOp16 aluAdc (dst16 f) (src16 f) (formLength16 f) s := by cases f <;> rfl
@[simp] theorem exec_two16_sub (f : Form16) (s : State) :
    exec (.two16 .sub f) s = twoOp16 aluSub (dst16 f) (src16 f) (formLength16 f) s := by cases f <;> rfl
@[simp] theorem exec_two16_sbb (f : Form16) (s : State) :
    exec (.two16 .sbb f) s = twoOp16 aluSbb (dst16 f) (src16 f) (formLength16 f) s := by cases f <;> rfl
@[simp] theorem exec_two16_and (f : Form16) (s : State) :
    exec (.two16 .and f) s = twoOp16 aluAnd (dst16 f) (src16 f) (formLength16 f) s := by cases f <;> rfl
@[simp] theorem exec_two16_or (f : Form16) (s : State) :
    exec (.two16 .or f) s = twoOp16 aluOr (dst16 f) (src16 f) (formLength16 f) s := by cases f <;> rfl
@[simp] theorem exec_two16_xor (f : Form16) (s : State) :
    exec (.two16 .xor f) s = twoOp16 aluXor (dst16 f) (src16 f) (formLength16 f) s := by cases f <;> rfl
@[simp] theorem exec_two16_cmp (f : Form16) (s : State) :
    exec (.two16 .cmp f) s = compare16 (dst16 f) (src16 f) (formLength16 f) s := by cases f <;> rfl
@[simp] theorem exec_unary16_inc (r : Reg16) (s : State) :
    exec (.unary16 .inc r) s = unaryOp16 aluInc r s := rfl
@[simp] theorem exec_unary16_dec (r : Reg16) (s : State) :
    exec (.unary16 .dec r) s = unaryOp16 aluDec r s := rfl
@[simp] theorem exec_unary16_not (r : Reg16) (s : State) :
    exec (.unary16 .not r) s = unaryOp16 aluNot r s := rfl
@[simp] theorem exec_unary16_neg (r : Reg16) (s : State) :
    exec (.unary16 .neg r) s = unaryOp16 aluNeg r s := rfl
@[simp] theorem exec_unary16_mul (r : Reg16) (s : State) :
    exec (.unary16 .mul r) s = .next ((mulBy16 (s.reg16 r) s).complete 2) := rfl
@[simp] theorem exec_unary16_div (r : Reg16) (s : State) :
    exec (.unary16 .div r) s = s.attempt (divBy16 (s.reg16 r) s) fun t => .next (t.complete 2) := rfl
@[simp] theorem exec_shift16_shl (r : Reg16) (c : ShiftCount) (s : State) :
    exec (.shift16 .shl r c) s = shiftOp16 aluShl r c (match c with | .one => 2 | .cl => 2 | .imm8 _ => 3) s := by
  cases c <;> rfl
@[simp] theorem exec_shift16_shr (r : Reg16) (c : ShiftCount) (s : State) :
    exec (.shift16 .shr r c) s = shiftOp16 aluShr r c (match c with | .one => 2 | .cl => 2 | .imm8 _ => 3) s := by
  cases c <;> rfl
@[simp] theorem exec_jump_jo (rel : Byte) (s : State) :
    exec (.jump .jo rel) s = jumpIf (condJo s.flags) rel s := rfl
@[simp] theorem exec_jump_jno (rel : Byte) (s : State) :
    exec (.jump .jno rel) s = jumpIf (condJno s.flags) rel s := rfl
@[simp] theorem exec_jump_jb (rel : Byte) (s : State) :
    exec (.jump .jb rel) s = jumpIf (condJb s.flags) rel s := rfl
@[simp] theorem exec_jump_jnb (rel : Byte) (s : State) :
    exec (.jump .jnb rel) s = jumpIf (condJnb s.flags) rel s := rfl
@[simp] theorem exec_jump_jz (rel : Byte) (s : State) :
    exec (.jump .jz rel) s = jumpIf (condJz s.flags) rel s := rfl
@[simp] theorem exec_jump_jnz (rel : Byte) (s : State) :
    exec (.jump .jnz rel) s = jumpIf (condJnz s.flags) rel s := rfl
@[simp] theorem exec_jump_jbe (rel : Byte) (s : State) :
    exec (.jump .jbe rel) s = jumpIf (condJbe s.flags) rel s := rfl
@[simp] theorem exec_jump_ja (rel : Byte) (s : State) :
    exec (.jump .ja rel) s = jumpIf (condJa s.flags) rel s := rfl
@[simp] theorem exec_jump_js (rel : Byte) (s : State) :
    exec (.jump .js rel) s = jumpIf (condJs s.flags) rel s := rfl
@[simp] theorem exec_jump_jns (rel : Byte) (s : State) :
    exec (.jump .jns rel) s = jumpIf (condJns s.flags) rel s := rfl
@[simp] theorem exec_jump_jl (rel : Byte) (s : State) :
    exec (.jump .jl rel) s = jumpIf (condJl s.flags) rel s := rfl
@[simp] theorem exec_jump_jge (rel : Byte) (s : State) :
    exec (.jump .jge rel) s = jumpIf (condJge s.flags) rel s := rfl
@[simp] theorem exec_jump_jle (rel : Byte) (s : State) :
    exec (.jump .jle rel) s = jumpIf (condJle s.flags) rel s := rfl
@[simp] theorem exec_jump_jg (rel : Byte) (s : State) :
    exec (.jump .jg rel) s = jumpIf (condJg s.flags) rel s := rfl
@[simp] theorem exec_jump_jmp (rel : Byte) (s : State) : exec (.jump .jmp rel) s = jumpIf true rel s := rfl
@[simp] theorem exec_jump_loop (rel : Byte) (s : State) :
    exec (.jump .loop rel) s =
      jumpIf (decide (s.reg16 .cx - 1 ≠ 0)) rel (s.setReg16 .cx (s.reg16 .cx - 1)) := rfl
@[simp] theorem exec_hlt (s : State) : exec .hlt s = .next (s.halt 1) := rfl
@[simp] theorem exec_movR8Addr (d : Reg8) (a : Word) (s : State) :
    exec (.movR8Addr d a) s = move8 (.reg d) (.loc (.direct a)) 3 s := rfl
@[simp] theorem exec_movR16Addr (d : Reg16) (a : Word) (s : State) :
    exec (.movR16Addr d a) s = move16 (.reg d) (.loc (.direct a)) 3 s := rfl
@[simp] theorem exec_movAddrR8 (a : Word) (r : Reg8) (s : State) :
    exec (.movAddrR8 a r) s = move8 (.direct a) (.loc (.reg r)) 3 s := rfl
@[simp] theorem exec_movAddrR16 (a : Word) (r : Reg16) (s : State) :
    exec (.movAddrR16 a r) s = move16 (.direct a) (.loc (.reg r)) 3 s := rfl

/-! ### The templates -/

/-- The first missing cell of a byte-wide operand. -/
def State.opBad8 (s : State) : Operand8 → Option Nat
  | .loc l => s.locBad8 l
  | .imm _ => none

theorem State.readOp8_ok {s : State} {o : Operand8} (h : s.opBad8 o = none) :
    s.readOp8 o = .ok (s.opValue8 o) := by
  cases o with
  | loc l => exact State.readLoc8_ok h
  | imm v => rfl

theorem State.readOp8_error {s : State} {o : Operand8} {x : Nat} (h : s.opBad8 o = some x) :
    s.readOp8 o = .error (outOfRange x) := by
  cases o with
  | loc l => exact State.readLoc8_error h
  | imm v => cases h

/-- A form exists whole exactly when both its operands do. -/
theorem View.badCell_two8_none {op : TwoOp} {f : Form8} {s : State} (h : (View.two8 op f).badCell s = none) :
    s.locBad8 (dst8 f) = none ∧ s.opBad8 (src8 f) = none := by
  cases f <;> exact ⟨by first | rfl | exact h, by first | rfl | exact h⟩

/-- The missing cell of a form is its destination's or its source's; the other operand is no memory operand. -/
theorem View.badCell_two8_some {op : TwoOp} {f : Form8} {s : State} {x : Nat}
    (h : (View.two8 op f).badCell s = some x) :
    (s.locBad8 (dst8 f) = some x ∧ s.opBad8 (src8 f) = none) ∨
    (s.locBad8 (dst8 f) = none ∧ s.opBad8 (src8 f) = some x) := by
  cases f
  · cases h
  · exact .inr ⟨rfl, h⟩
  · exact .inl ⟨h, rfl⟩
  · cases h

theorem twoOp8_ok (alu : Byte → Byte → Flags → AluOut 8) {dst : Loc8} {src : Operand8} (len : Nat) {s : State}
    (hd : s.locBad8 dst = none) (hs : s.opBad8 src = none) :
    twoOp8 alu dst src len s =
      .next (((s.putLoc8 dst (alu (s.locValue8 dst) (s.opValue8 src) s.flags).result).setFlags
      (alu (s.locValue8 dst) (s.opValue8 src) s.flags).flags).complete len) := by
  simp only [twoOp8, State.readLoc8_ok hd, State.readOp8_ok hs, State.writeLoc8_ok hd, State.attempt_ok]

theorem twoOp8_dst_error (alu : Byte → Byte → Flags → AluOut 8) {dst : Loc8} {src : Operand8} (len : Nat) {s : State} {x : Nat}
    (hd : s.locBad8 dst = some x) : twoOp8 alu dst src len s = .next (s.raise (outOfRange x)) := by
  simp only [twoOp8, State.readLoc8_error hd, State.attempt_error]

theorem twoOp8_src_error (alu : Byte → Byte → Flags → AluOut 8) {dst : Loc8} {src : Operand8} (len : Nat) {s : State} {x : Nat}
    (hd : s.locBad8 dst = none) (hs : s.opBad8 src = some x) : twoOp8 alu dst src len s = .next (s.raise (outOfRange x)) := by
  simp only [twoOp8, State.readLoc8_ok hd, State.readOp8_error hs, State.attempt_ok, State.attempt_error]

/-- Everything `twoOp8` can answer on a form: it completes, or AddressError names the form's first missing cell. -/
theorem twoOp8_form (alu : Byte → Byte → Flags → AluOut 8) (op : TwoOp) (f : Form8) (len : Nat) (s : State) :
    ((View.two8 op f).badCell s = none ∧ twoOp8 alu (dst8 f) (src8 f) len s =
      .next (((s.putLoc8 (dst8 f) (alu (s.locValue8 (dst8 f)) (s.opValue8 (src8 f)) s.flags).result).setFlags
      (alu (s.locValue8 (dst8 f)) (s.opValue8 (src8 f)) s.flags).flags).complete len)) ∨
    (∃ x, (View.two8 op f).badCell s = some x ∧
      twoOp8 alu (dst8 f) (src8 f) len s = .next (s.raise (outOfRange x))) := by
  cases h : (View.two8 op f).badCell s with
  | none =>
    obtain ⟨hd, hs⟩ := View.badCell_two8_none h
    exact .inl ⟨rfl, twoOp8_ok alu len hd hs⟩
  | some x =>
    refine .inr ⟨x, rfl, ?_⟩
    rcases View.badCell_two8_some h with ⟨hd, hs⟩ | ⟨hd, hs⟩
    · exact twoOp8_dst_error alu len hd
    · exact twoOp8_src_error alu len hd hs

theorem move8_ok {dst : Loc8} {src : Operand8} (len : Nat) {s : State}
    (hd : s.locBad8 dst = none) (hs : s.opBad8 src = none) :
    move8 dst src len s =
      .next ((s.putLoc8 dst (s.opValue8 src)).complete len) := by
  simp only [move8, State.readOp8_ok hs, State.writeLoc8_ok hd, State.attempt_ok]

theorem move8_dst_error {dst : Loc8} {src : Operand8} (len : Nat) {s : State} {x : Nat}
    (hd : s.locBad8 dst = some x) (hs : s.opBad8 src = none) : move8 dst src len s = .next (s.raise (outOfRange x)) := by
  simp only [move8, State.readOp8_ok hs, State.writeLoc8_error hd, State.attempt_ok, State.attempt_error]

theorem move8_src_error {dst : Loc8} {src : Operand8} (len : Nat) {s : State} {x : Nat}
    (hs : s.opBad8 src = some x) : move8 dst src len s = .next (s.raise (outOfRange x)) := by
  simp only [move8, State.readOp8_error hs, State.attempt_error]

/-- Everything `move8` can answer on a form: it completes, or AddressError names the form's first missing cell. -/
theorem move8_form (op : TwoOp) (f : Form8) (len : Nat) (s : State) :
    ((View.two8 op f).badCell s = none ∧ move8 (dst8 f) (src8 f) len s =
      .next ((s.putLoc8 (dst8 f) (s.opValue8 (src8 f))).complete len)) ∨
    (∃ x, (View.two8 op f).badCell s = some x ∧
      move8 (dst8 f) (src8 f) len s = .next (s.raise (outOfRange x))) := by
  cases h : (View.two8 op f).badCell s with
  | none =>
    obtain ⟨hd, hs⟩ := View.badCell_two8_none h
    exact .inl ⟨rfl, move8_ok len hd hs⟩
  | some x =>
    refine .inr ⟨x, rfl, ?_⟩
    rcases View.badCell_two8_some h with ⟨hd, hs⟩ | ⟨hd, hs⟩
    · exact move8_dst_error len hd hs
    · exact move8_src_error len hs

theorem compare8_ok {dst : Loc8} {src : Operand8} (len : Nat) {s : State}
    (hd : s.locBad8 dst = none) (hs : s.opBad8 src = none) :
    compare8 dst src len s =
      .next ((s.setFlags (cmpFlags (s.locValue8 dst) (s.opValue8 src) s.flags)).complete len) := by
  simp only [compare8, State.readLoc8_ok hd, State.readOp8_ok hs, State.attempt_ok]

theorem compare8_dst_error {dst : Loc8} {src : Operand8} (len : Nat) {s : State} {x : Nat}
    (hd : s.locBad8 dst = some x) : compare8 dst src len s = .next (s.raise (outOfRange x)) := by
  simp only [compare8, State.readLoc8_error hd, State.attempt_error]

theorem compare8_src_error {dst : Loc8} {src : Operand8} (len : Nat) {s : State} {x : Nat}
    (hd : s.locBad8 dst = none) (hs : s.opBad8 src = some x) : compare8 dst src len s = .next (s.raise (outOfRange x)) := by
  simp only [compare8, State.readLoc8_ok hd, State.readOp8_error hs, State.attempt_ok, State.attempt_error]

/-- Everything `compare8` can answer on a form: it completes, or AddressError names the form's first missing cell. -/
theorem compare8_form (op : TwoOp) (f : Form8) (len : Nat) (s : State) :
    ((View.two8 op f).badCell s = none ∧ compare8 (dst8 f) (src8 f) len s =
      .next ((s.setFlags (cmpFlags (s.locValue8 (dst8 f)) (s.opValue8 (src8 f)) s.flags)).complete len)) ∨
    (∃ x, (View.two8 op f).badCell s = some x ∧
      compare8 (dst8 f) (src8 f) len s = .next (s.raise (outOfRange x))) := by
  cases h : (View.two8 op f).badCell s with
  | none =>
    obtain ⟨hd, hs⟩ := View.badCell_two8_none h
    exact .inl ⟨rfl, compare8_ok len hd hs⟩
  | some x =>
    refine .inr ⟨x, rfl, ?_⟩
    rcases View.badCell_two8_some h with ⟨hd, hs⟩ | ⟨hd, hs⟩
    · exact compare8_dst_error len hd
    · exact compare8_src_error len hd hs

/-- The first missing cell of a word-wide operand. -/
def State.opBad16 (s : State) : Operand16 → Option Nat
  | .loc l => s.locBad16 l
  | .imm _ => none

theorem State.readOp16_ok {s : State} {o : Operand16} (h : s.opBad16 o = none) :
    s.readOp16 o = .ok (s.opValue16 o) := by
  cases o with
  | loc l => exact State.readLoc16_ok h
  | imm v => rfl

theorem State.readOp16_error {s : State} {o : Operand16} {x : Nat} (h : s.opBad16 o = some x) :
    s.readOp16 o = .error (outOfRange x) := by
  cases o with
  | loc l => exact State.readLoc16_error h
  | imm v => cases h

/-- A form exists whole exactly when both its operands do. -/
theorem View.badCell_two16_none {op : TwoOp} {f : Form16} {s : State} (h : (View.two16 op f).badCell s = none) :
    s.locBad16 (dst16 f) = none ∧ s.opBad16 (src16 f) = none := by
  cases f <;> exact ⟨by first | rfl | exact h, by first | rfl | exact h⟩

/-- The missing cell of a form is its destination's or its source's; the other operand is no memory operand. -/
theorem View.badCell_two16_some {op : TwoOp} {f : Form16} {s : State} {x : Nat}
    (h : (View.two16 op f).badCell s = some x) :
    (s.locBad16 (dst16 f) = some x ∧ s.opBad16 (src16 f) = none) ∨
    (s.locBad16 (dst16 f) = none ∧ s.opBad16 (src16 f) = some x) := by
  cases f
  · cases h
  · exact .inr ⟨rfl, h⟩
  · exact .inl ⟨h, rfl⟩
  · cases h

theorem twoOp16_ok (alu : Word → Word → Flags → AluOut 16) {dst : Loc16} {src : Operand16} (len : Nat) {s : State}
    (hd : s.locBad16 dst = none) (hs : s.opBad16 src = none) :
    twoOp16 alu dst src len s =
      .next (((s.putLoc16 dst (alu (s.locValue16 dst) (s.opValue16 src) s.flags).result).setFlags
      (alu (s.locValue16 dst) (s.opValue16 src) s.flags).flags).complete len) := by
  simp only [twoOp16, State.readLoc16_ok hd, State.readOp16_ok hs, State.writeLoc16_ok hd, State.attempt_ok]

theorem twoOp16_dst_error (alu : Word → Word → Flags → AluOut 16) {dst : Loc16} {src : Operand16} (len : Nat) {s : State} {x : Nat}
    (hd : s.locBad16 dst = some x) : twoOp16 alu dst src len s = .next (s.raise (outOfRange x)) := by
  simp only [twoOp16, State.readLoc16_error hd, State.attempt_error]

theorem twoOp16_src_error (alu : Word → Word → Flags → AluOut 16) {dst : Loc16} {src : Operand16} (len : Nat) {s : State} {x : Nat}
    (hd : s.locBad16 dst = none) (hs : s.opBad16 src = some x) : twoOp16 alu dst src len s = .next (s.raise (outOfRange x)) := by
  simp only [twoOp16, State.readLoc16_ok hd, State.readOp16_error hs, State.attempt_ok, State.attempt_error]

/-- Everything `twoOp16` can answer on a form: it completes, or AddressError names the form's first missing cell. -/
theorem twoOp16_form (alu : Word → Word → Flags → AluOut 16) (op : TwoOp) (f : Form16) (len : Nat) (s : State) :
    ((View.two16 op f).badCell s = none ∧ twoOp16 alu (dst16 f) (src16 f) len s =
      .next (((s.putLoc16 (dst16 f) (alu (s.locValue16 (dst16 f)) (s.opValue16 (src16 f)) s.flags).result).setFlags
      (alu (s.locValue16 (dst16 f)) (s.opValue16 (src16 f)) s.flags).flags).complete len)) ∨
    (∃ x, (View.two16 op f).badCell s = some x ∧
      twoOp16 alu (dst16 f) (src16 f) len s = .next (s.raise (outOfRange x))) := by
  cases h : (View.two16 op f).badCell s with
  | none =>
    obtain ⟨hd, hs⟩ := View.badCell_two16_none h
    exact .inl ⟨rfl, twoOp16_ok alu len hd hs⟩
  | some x =>
    refine .inr ⟨x, rfl, ?_⟩
    rcases View.badCell_two16_some h with ⟨hd, hs⟩ | ⟨hd, hs⟩
    · exact twoOp16_dst_error alu len hd
    · exact twoOp16_src_error alu len hd hs

theorem move16_ok {dst : Loc16} {src : Operand16} (len : Nat) {s : State}
    (hd : s.locBad16 dst = none) (hs : s.opBad16 src = none) :
    move16 dst src len s =
      .next ((s.putLoc16 dst (s.opValue16 src)).complete len) := by
  simp only [move16, State.readOp16_ok hs, State.writeLoc16_ok hd, State.attempt_ok]

theorem move16_dst_error {dst : Loc16} {src : Operand16} (len : Nat) {s : State} {x : Nat}
    (hd : s.locBad16 dst = some x) (hs : s.opBad16 src = none) : move16 dst src len s = .next (s.raise (outOfRange x)) := by
  simp only [move16, State.readOp16_ok hs, State.writeLoc16_error hd, State.attempt_ok, State.attempt_error]

theorem move16_src_error {dst : Loc16} {src : Operand16} (len : Nat) {s : State} {x : Nat}
    (hs : s.opBad16 src = some x) : move16 dst src len s = .next (s.raise (outOfRange x)) := by
  simp only [move16, State.readOp16_error hs, State.attempt_error]

/-- Everything `move16` can answer on a form: it completes, or AddressError names the form's first missing cell. -/
theorem move16_form (op : TwoOp) (f : Form16) (len : Nat) (s : State) :
    ((View.two16 op f).badCell s = none ∧ move16 (dst16 f) (src16 f) len s =
      .next ((s.putLoc16 (dst16 f) (s.opValue16 (src16 f))).complete len)) ∨
    (∃ x, (View.two16 op f).badCell s = some x ∧
      move16 (dst16 f) (src16 f) len s = .next (s.raise (outOfRange x))) := by
  cases h : (View.two16 op f).badCell s with
  | none =>
    obtain ⟨hd, hs⟩ := View.badCell_two16_none h
    exact .inl ⟨rfl, move16_ok len hd hs⟩
  | some x =>
    refine .inr ⟨x, rfl, ?_⟩
    rcases View.badCell_two16_some h with ⟨hd, hs⟩ | ⟨hd, hs⟩
    · exact move16_dst_error len hd hs
    · exact move16_src_error len hs

theorem compare16_ok {dst : Loc16} {src : Operand16} (len : Nat) {s : State}
    (hd : s.locBad16 dst = none) (hs : s.opBad16 src = none) :
    compare16 dst src len s =
      .next ((s.setFlags (cmpFlags (s.locValue16 dst) (s.opValue16 src) s.flags)).complete len) := by
  simp only [compare16, State.readLoc16_ok hd, State.readOp16_ok hs, State.attempt_ok]

theorem compare16_dst_error {dst : Loc16} {src : Operand16} (len : Nat) {s : State} {x : Nat}
    (hd : s.locBad16 dst = some x) : compare16 dst src len s = .next (s.raise (outOfRange x)) := by
  simp only [compare16, State.readLoc16_error hd, State.attempt_error]

theorem compare16_src_error {dst : Loc16} {src : Operand16} (len : Nat) {s : State} {x : Nat}
    (hd : s.locBad16 dst = none) (hs : s.opBad16 src = some x) : compare16 dst src len s = .next (s.raise (outOfRange x)) := by
  simp only [compare16, State.readLoc16_ok hd, State.readOp16_error hs, State.attempt_ok, State.attempt_error]

/-- Everything `compare16` can answer on a form: it completes, or AddressError names the form's first missing cell. -/
theorem compare16_form (op : TwoOp) (f : Form16) (len : Nat) (s : State) :
    ((View.two16 op f).badCell s = none ∧ compare16 (dst16 f) (src16 f) len s =
      .next ((s.setFlags (cmpFlags (s.locValue16 (dst16 f)) (s.opValue16 (src16 f)) s.flags)).complete len)) ∨
    (∃ x, (View.two16 op f).badCell s = some x ∧
      compare16 (dst16 f) (src16 f) len s = .next (s.raise (outOfRange x))) := by
  cases h : (View.two16 op f).badCell s with
  | none =>
    obtain ⟨hd, hs⟩ := View.badCell_two16_none h
    exact .inl ⟨rfl, compare16_ok len hd hs⟩
  | some x =>
    refine .inr ⟨x, rfl, ?_⟩
    rcases View.badCell_two16_some h with ⟨hd, hs⟩ | ⟨hd, hs⟩
    · exact compare16_dst_error len hd
    · exact compare16_src_error len hd hs

end Sys2Proof.Machine
end

