-- ==== Sys2Proof/Laws/Steps.lean ====
section
/-! SUPPORT. Everything an instruction and a step can do to the state outside its registers, flags and IP, said once
(`exec_next_cases`, `step_cases`), and the decoder's behaviour on longer byte lists, which fetching one byte at a time
rests on. -/

namespace Sys2Proof.Machine

/-- What a completed instruction does outside registers, flags and IP: RUN is not Faulted, FAULT, ENTRY and the
parameters are as before, memory keeps its form and lists no cell that does not exist. -/
structure Completes (s t : State) : Prop where
  run : t.run ≠ .faulted
  fault : t.fault = s.fault
  entry : t.entry = s.entry
  config : t.config = s.config
  mem_wf : Memory.wf s.mem → Memory.wf t.mem
  mem_cells : ∀ c ∈ t.mem, c ∈ s.mem ∨ c.1 < s.config.memSize

/-- A state that differs in registers, flags, IP and a RUN that is not Faulted. -/
theorem Completes.of_same_mem {s t : State} (run : t.run ≠ .faulted) (fault : t.fault = s.fault)
    (entry : t.entry = s.entry) (config : t.config = s.config) (mem : t.mem = s.mem) : Completes s t :=
  ⟨run, fault, entry, config, fun h => mem ▸ h, fun _ h => .inl (mem ▸ h)⟩

theorem setByte_cells {s : State} {a : Nat} {v : Byte} (h : a < s.config.memSize) (c : Host.Cell)
    (hc : c ∈ (s.setByte a v).mem) : c ∈ s.mem ∨ c.1 < s.config.memSize := by
  rcases Memory.mem_write hc with ⟨rfl, -⟩ | hc
  · exact .inr h
  · exact .inl hc

theorem lt_of_badCell_none {s : State} {n a : Nat} (h : s.badCell n a = none) : a < s.config.memSize := by
  simp only [State.badCell] at h
  split at h
  · cases h
  · omega

theorem succ_lt_of_badCell_none {s : State} {a : Nat} (h : s.badCell 2 a = none) : a + 1 < s.config.memSize := by
  simp only [State.badCell] at h
  split at h
  · cases h
  · split at h
    · cases h
    · next h1 h2 => exact Nat.lt_of_not_le fun g => h2 ⟨trivial, g⟩

theorem setWord_cells {s : State} {a : Nat} {u v : Byte} (h : a + 1 < s.config.memSize) (c : Host.Cell)
    (hc : c ∈ ((s.setByte a u).setByte (a + 1) v).mem) : c ∈ s.mem ∨ c.1 < s.config.memSize := by
  rcases setByte_cells (s := s.setByte a u) (by simpa using h) c hc with hc | hc
  · exact setByte_cells (by omega) c hc
  · exact .inr hc

/-- Memory after a byte-wide location that exists is written. -/
theorem State.putLoc8_mem {s : State} {l : Loc8} (v : Byte) (h : s.locBad8 l = none) :
    (Memory.wf s.mem → Memory.wf (s.putLoc8 l v).mem) ∧
    (∀ c ∈ (s.putLoc8 l v).mem, c ∈ s.mem ∨ c.1 < s.config.memSize) := by
  cases l with
  | reg r => exact ⟨id, fun c hc => .inl hc⟩
  | direct a => exact ⟨Memory.write_wf _ _ _, setByte_cells (lt_of_badCell_none h)⟩
  | base b => exact ⟨Memory.write_wf _ _ _, setByte_cells (lt_of_badCell_none h)⟩

/-- Memory after a word-wide location that exists is written. -/
theorem State.putLoc16_mem {s : State} {l : Loc16} (v : Word) (h : s.locBad16 l = none) :
    (Memory.wf s.mem → Memory.wf (s.putLoc16 l v).mem) ∧
    (∀ c ∈ (s.putLoc16 l v).mem, c ∈ s.mem ∨ c.1 < s.config.memSize) := by
  cases l with
  | reg r => exact ⟨id, fun c hc => .inl hc⟩
  | direct a =>
    exact ⟨fun w => Memory.write_wf _ _ _ (Memory.write_wf _ _ _ w), setWord_cells (succ_lt_of_badCell_none h)⟩
  | base b =>
    exact ⟨fun w => Memory.write_wf _ _ _ (Memory.write_wf _ _ _ w), setWord_cells (succ_lt_of_badCell_none h)⟩

theorem next_inj {s t : State} (h : (Host.Outcome.next s : StepOutcome) = .next t) : s = t := by
  injection h

theorem unaryOp8_completes {f : Byte → Flags → AluOut 8} {r : Reg8} {s t : State} (h : unaryOp8 f r s = .next t) :
    Completes s t := by
  cases next_inj h; exact .of_same_mem (by simp) rfl rfl rfl rfl

theorem unaryOp16_completes {f : Word → Flags → AluOut 16} {r : Reg16} {s t : State}
    (h : unaryOp16 f r s = .next t) : Completes s t := by
  cases next_inj h; exact .of_same_mem (by simp) rfl rfl rfl rfl

theorem shiftOp8_completes {f : Byte → Nat → Flags → AluOut 8} {r : Reg8} {c : ShiftCount} {n : Nat} {s t : State}
    (h : shiftOp8 f r c n s = .next t) : Completes s t := by
  cases next_inj h; exact .of_same_mem (by simp) rfl rfl rfl rfl

theorem shiftOp16_completes {f : Word → Nat → Flags → AluOut 16} {r : Reg16} {c : ShiftCount} {n : Nat} {s t : State}
    (h : shiftOp16 f r c n s = .next t) : Completes s t := by
  cases next_inj h; exact .of_same_mem (by simp) rfl rfl rfl rfl

theorem jumpIf_completes {b : Bool} {rel : Byte} {s t : State} (h : jumpIf b rel s = .next t) : Completes s t := by
  cases b
  · cases next_inj h; exact .of_same_mem (by simp) rfl rfl rfl rfl
  · cases next_inj h; exact .of_same_mem (by simp) rfl rfl rfl rfl

/-- DIV at W = 8 either raises or writes registers only. -/
theorem divBy8_ok {x : Byte} {s t : State} (h : divBy8 x s = .ok t) :
    t = { s with regs := t.regs } := by
  simp only [divBy8] at h
  split at h
  · cases h
  · split at h
    · cases h
    · cases h; rfl

/-- DIV at W = 16 either raises or writes registers only. -/
theorem divBy16_ok {x : Word} {s t : State} (h : divBy16 x s = .ok t) :
    t = { s with regs := t.regs } := by
  simp only [divBy16] at h
  split at h
  · cases h
  · split at h
    · cases h
    · cases h; rfl

theorem div_next_cases {s t : State} {x : Except FaultRecord State} (hx : ∀ u, x = .ok u → u = { s with regs := u.regs })
    (h : (s.attempt x fun u => .next (u.complete 2)) = .next t) : (∃ f, t = s.raise f) ∨ Completes s t := by
  rcases State.attempt_next h with ⟨f, -, rfl⟩ | ⟨u, hu, h⟩
  · exact .inl ⟨f, rfl⟩
  · cases next_inj h
    rw [hx u hu]
    exact .inr (.of_same_mem (by simp) rfl rfl rfl rfl)

/-- What an instruction can do: raise a fault from the state before it, or complete. -/
theorem exec_next_cases {i : Instr} {s t : State} (h : exec i s = .next t) :
    (∃ f, t = s.raise f) ∨ Completes s t := by
  revert h
  refine View.forall_instr (P := fun i => exec i s = .next t → _) (fun v h => ?_) i
  cases v with
  | two8 op f =>
    have two : ∀ alu, twoOp8 alu (dst8 f) (src8 f) (formLength8 f) s = .next t →
        (∃ f, t = s.raise f) ∨ Completes s t := fun alu h => by
      rcases twoOp8_form alu op f (formLength8 f) s with ⟨hb, e⟩ | ⟨x, -, e⟩
      · cases next_inj (e.symm.trans h)
        have hm := State.putLoc8_mem (alu (s.locValue8 (dst8 f)) (s.opValue8 (src8 f)) s.flags).result
          (View.badCell_two8_none hb).1
        exact .inr ⟨by simp, by simp, by simp, by simp, hm.1, hm.2⟩
      · exact .inl ⟨_, (next_inj (e.symm.trans h)).symm⟩
    cases op <;> simp only [View.instr, exec_two8_mov, exec_two8_add, exec_two8_adc, exec_two8_sub, exec_two8_sbb,
      exec_two8_and, exec_two8_or, exec_two8_xor, exec_two8_cmp] at h
    case mov =>
      rcases move8_form .mov f (formLength8 f) s with ⟨hb, e⟩ | ⟨x, -, e⟩
      · cases next_inj (e.symm.trans h)
        have hm := State.putLoc8_mem (s.opValue8 (src8 f)) (View.badCell_two8_none hb).1
        exact .inr ⟨by simp, by simp, by simp, by simp, hm.1, hm.2⟩
      · exact .inl ⟨_, (next_inj (e.symm.trans h)).symm⟩
    case cmp =>
      rcases compare8_form .cmp f (formLength8 f) s with ⟨-, e⟩ | ⟨x, -, e⟩
      · cases next_inj (e.symm.trans h); exact .inr (.of_same_mem (by simp) rfl rfl rfl rfl)
      · exact .inl ⟨_, (next_inj (e.symm.trans h)).symm⟩
    all_goals exact two _ h
  | two16 op f =>
    have two : ∀ alu, twoOp16 alu (dst16 f) (src16 f) (formLength16 f) s = .next t →
        (∃ f, t = s.raise f) ∨ Completes s t := fun alu h => by
      rcases twoOp16_form alu op f (formLength16 f) s with ⟨hb, e⟩ | ⟨x, -, e⟩
      · cases next_inj (e.symm.trans h)
        have hm := State.putLoc16_mem (alu (s.locValue16 (dst16 f)) (s.opValue16 (src16 f)) s.flags).result
          (View.badCell_two16_none hb).1
        exact .inr ⟨by simp, by simp, by simp, by simp, hm.1, hm.2⟩
      · exact .inl ⟨_, (next_inj (e.symm.trans h)).symm⟩
    cases op <;> simp only [View.instr, exec_two16_mov, exec_two16_add, exec_two16_adc, exec_two16_sub, exec_two16_sbb,
      exec_two16_and, exec_two16_or, exec_two16_xor, exec_two16_cmp] at h
    case mov =>
      rcases move16_form .mov f (formLength16 f) s with ⟨hb, e⟩ | ⟨x, -, e⟩
      · cases next_inj (e.symm.trans h)
        have hm := State.putLoc16_mem (s.opValue16 (src16 f)) (View.badCell_two16_none hb).1
        exact .inr ⟨by simp, by simp, by simp, by simp, hm.1, hm.2⟩
      · exact .inl ⟨_, (next_inj (e.symm.trans h)).symm⟩
    case cmp =>
      rcases compare16_form .cmp f (formLength16 f) s with ⟨-, e⟩ | ⟨x, -, e⟩
      · cases next_inj (e.symm.trans h); exact .inr (.of_same_mem (by simp) rfl rfl rfl rfl)
      · exact .inl ⟨_, (next_inj (e.symm.trans h)).symm⟩
    all_goals exact two _ h
  | load8 d a =>
    cases hb : s.badCell 1 (directAddr a) with
    | none =>
      cases next_inj ((move8_ok (dst := .reg d) (src := .loc (.direct a)) 3 rfl hb).symm.trans h)
      exact .inr (.of_same_mem (by simp) rfl rfl rfl rfl)
    | some x =>
      exact .inl ⟨_, (next_inj ((move8_src_error (dst := .reg d) (src := .loc (.direct a)) 3 hb).symm.trans h)).symm⟩
  | load16 d a =>
    cases hb : s.badCell 2 (directAddr a) with
    | none =>
      cases next_inj ((move16_ok (dst := .reg d) (src := .loc (.direct a)) 3 rfl hb).symm.trans h)
      exact .inr (.of_same_mem (by simp) rfl rfl rfl rfl)
    | some x =>
      exact .inl ⟨_, (next_inj ((move16_src_error (dst := .reg d) (src := .loc (.direct a)) 3 hb).symm.trans h)).symm⟩
  | store8 a r =>
    cases hb : s.badCell 1 (directAddr a) with
    | none =>
      cases next_inj ((move8_ok (dst := .direct a) (src := .loc (.reg r)) 3 hb rfl).symm.trans h)
      have hm := State.putLoc8_mem (l := .direct a) (s.opValue8 (.loc (.reg r))) hb
      exact .inr ⟨by simp, rfl, rfl, rfl, hm.1, hm.2⟩
    | some x =>
      exact .inl ⟨_, (next_inj ((move8_dst_error (dst := .direct a) (src := .loc (.reg r)) 3 hb rfl).symm.trans h)).symm⟩
  | store16 a r =>
    cases hb : s.badCell 2 (directAddr a) with
    | none =>
      cases next_inj ((move16_ok (dst := .direct a) (src := .loc (.reg r)) 3 hb rfl).symm.trans h)
      have hm := State.putLoc16_mem (l := .direct a) (s.opValue16 (.loc (.reg r))) hb
      exact .inr ⟨by simp, rfl, rfl, rfl, hm.1, hm.2⟩
    | some x =>
      exact .inl ⟨_, (next_inj ((move16_dst_error (dst := .direct a) (src := .loc (.reg r)) 3 hb rfl).symm.trans h)).symm⟩
  | unary8 op r =>
    cases op
    case mul => cases next_inj h; exact .inr (.of_same_mem (by simp) rfl rfl rfl rfl)
    case div => exact div_next_cases (fun u hu => divBy8_ok hu) h
    all_goals exact .inr (unaryOp8_completes h)
  | unary16 op r =>
    cases op
    case mul => cases next_inj h; exact .inr (.of_same_mem (by simp) rfl rfl rfl rfl)
    case div => exact div_next_cases (fun u hu => divBy16_ok hu) h
    all_goals exact .inr (unaryOp16_completes h)
  | shift8 op r c => cases op <;> cases c <;> exact .inr (shiftOp8_completes h)
  | shift16 op r c => cases op <;> cases c <;> exact .inr (shiftOp16_completes h)
  | jump op rel =>
    have plain : ∀ b, jumpIf b rel s = .next t → (∃ f, t = s.raise f) ∨ Completes s t := fun _ h =>
      .inr (jumpIf_completes h)
    cases op
    case loop =>
      have c := jumpIf_completes (s := s.setReg16 .cx (s.reg16 .cx - 1)) h
      exact .inr ⟨c.run, c.fault, c.entry, c.config, c.mem_wf, c.mem_cells⟩
    case jmp => exact plain true h
    all_goals exact plain _ h
  | hlt => cases next_inj h; exact .inr (.of_same_mem (by simp) rfl rfl rfl rfl)

/-- The outcome is a next state in which the core runs on or has faulted. -/
def StepOutcome.Runs (o : StepOutcome) : Prop := ∃ t, o = .next t ∧ (t.run = .running ∨ t.run = .faulted)

/-- An access that may raise ends in a next state when the rest always does. -/
theorem State.attempt_runs {α : Type} {s : State} {x : Except FaultRecord α} {k : α → StepOutcome}
    (h : ∀ a, StepOutcome.Runs (k a)) : StepOutcome.Runs (s.attempt x k) := by
  cases x with
  | error f => exact ⟨_, rfl, .inr rfl⟩
  | ok a => exact h a

theorem jumpIf_runs (b : Bool) (rel : Byte) (s : State) : StepOutcome.Runs (jumpIf b rel s) := by
  cases b <;> exact ⟨_, rfl, .inl rfl⟩

/-- Every instruction but HLT answers a next state, in which RUN is Running or Faulted (R22). -/
theorem exec_runs {i : Instr} (hi : i ≠ .hlt) (s : State) : StepOutcome.Runs (exec i s) := by
  revert hi
  refine View.forall_instr (P := fun i => i ≠ .hlt → StepOutcome.Runs (exec i s)) (fun v hi => ?_) i
  cases v with
  | two8 op f =>
    cases op <;> simp only [View.instr, exec_two8_mov, exec_two8_add, exec_two8_adc, exec_two8_sub, exec_two8_sbb,
      exec_two8_and, exec_two8_or, exec_two8_xor, exec_two8_cmp]
    case mov => exact State.attempt_runs fun _ => State.attempt_runs fun _ => ⟨_, rfl, .inl rfl⟩
    case cmp => exact State.attempt_runs fun _ => State.attempt_runs fun _ => ⟨_, rfl, .inl rfl⟩
    all_goals exact State.attempt_runs fun _ => State.attempt_runs fun _ => State.attempt_runs fun _ => ⟨_, rfl, .inl rfl⟩
  | two16 op f =>
    cases op <;> simp only [View.instr, exec_two16_mov, exec_two16_add, exec_two16_adc, exec_two16_sub, exec_two16_sbb,
      exec_two16_and, exec_two16_or, exec_two16_xor, exec_two16_cmp]
    case mov => exact State.attempt_runs fun _ => State.attempt_runs fun _ => ⟨_, rfl, .inl rfl⟩
    case cmp => exact State.attempt_runs fun _ => State.attempt_runs fun _ => ⟨_, rfl, .inl rfl⟩
    all_goals exact State.attempt_runs fun _ => State.attempt_runs fun _ => State.attempt_runs fun _ => ⟨_, rfl, .inl rfl⟩
  | load8 d a => exact State.attempt_runs fun _ => ⟨_, rfl, .inl rfl⟩
  | load16 d a => exact State.attempt_runs fun _ => ⟨_, rfl, .inl rfl⟩
  | store8 a r => exact State.attempt_runs fun _ => ⟨_, rfl, .inl rfl⟩
  | store16 a r => exact State.attempt_runs fun _ => ⟨_, rfl, .inl rfl⟩
  | unary8 op r =>
    cases op
    case div => exact State.attempt_runs fun _ => ⟨_, rfl, .inl rfl⟩
    all_goals exact ⟨_, rfl, .inl rfl⟩
  | unary16 op r =>
    cases op
    case div => exact State.attempt_runs fun _ => ⟨_, rfl, .inl rfl⟩
    all_goals exact ⟨_, rfl, .inl rfl⟩
  | shift8 op r c => cases op <;> cases c <;> exact ⟨_, rfl, .inl rfl⟩
  | shift16 op r c => cases op <;> cases c <;> exact ⟨_, rfl, .inl rfl⟩
  | jump op rel =>
    cases op
    case jmp => exact jumpIf_runs true rel s
    all_goals exact jumpIf_runs _ _ _
  | hlt => exact absurd rfl hi

/-- Every instruction answers a next state from every state: none stops the machine outside it. -/
theorem exec_total (i : Instr) (s : State) : ∃ t, exec i s = .next t := by
  by_cases hi : i = .hlt
  · subst hi; exact ⟨_, rfl⟩
  · obtain ⟨t, h, -⟩ := exec_runs hi s; exact ⟨t, h⟩

/-- A core that may step fetches, and raises or executes. -/
theorem step_of_canStep {s : State} (h : s.run.canStep = true) :
    step s = s.attempt (fetch s) fun i => exec i s := by
  unfold step
  cases hr : s.run <;> simp_all [RunState.canStep]

/-- What a step that answers a next state did: it raised the fetch's fault, or executed the instruction fetched. -/
theorem step_cases {s t : State} (h : step s = .next t) :
    s.run.canStep = true ∧
    ((∃ f, fetch s = .error f ∧ t = s.raise f) ∨ (∃ i, fetch s = .ok i ∧ exec i s = .next t)) := by
  have hc : s.run.canStep = true := by
    unfold step at h
    cases hr : s.run <;> simp_all [RunState.canStep]
  exact ⟨hc, State.attempt_next (step_of_canStep hc ▸ h)⟩

/-! ### The decoder on longer lists -/

theorem decodeG2_append {op : TwoOp} {w : Bool} {bs : List Byte} (cs : List Byte) (h : decodeG2 op w bs ≠ .more) :
    decodeG2 op w (bs ++ cs) = decodeG2 op w bs := by
  match bs with
  | [] => exact absurd rfl h
  | [b2] =>
    revert h
    simp only [decodeG2, List.cons_append, List.nil_append]
    split <;> first | (intro _; rfl) | (split <;> first | (intro _; rfl) | (intro h; exact absurd rfl h))
  | b2 :: b3 :: rest => rfl

theorem decodeUnary_append {w : Bool} {bs : List Byte} (cs : List Byte) (h : decodeUnary w bs ≠ .more) :
    decodeUnary w (bs ++ cs) = decodeUnary w bs := by
  cases bs with
  | nil => exact absurd rfl h
  | cons b2 rest => rfl

theorem decodeShift_append {w : Bool} {bs : List Byte} (cs : List Byte) (h : decodeShift w bs ≠ .more) :
    decodeShift w (bs ++ cs) = decodeShift w bs := by
  match bs with
  | [] => exact absurd rfl h
  | [b2] =>
    revert h
    simp only [decodeShift, List.cons_append, List.nil_append]
    split <;> first | (intro _; rfl) | (split <;> first | (intro _; rfl) | (intro h; exact absurd rfl h))
  | b2 :: b3 :: rest => rfl

theorem decodeImm16_append {op : TwoOp} {r : BitVec 3} {bs : List Byte} (cs : List Byte)
    (h : decodeImm16 op r bs ≠ .more) : decodeImm16 op r (bs ++ cs) = decodeImm16 op r bs := by
  match bs with
  | [] => exact absurd rfl h
  | [b2] => exact absurd rfl h
  | b2 :: b3 :: rest => rfl

theorem decodeDirect_append {s w : Bool} {r : BitVec 3} {bs : List Byte} (cs : List Byte)
    (h : decodeDirect s w r bs ≠ .more) : decodeDirect s w r (bs ++ cs) = decodeDirect s w r bs := by
  match bs with
  | [] => exact absurd rfl h
  | [b2] => exact absurd rfl h
  | b2 :: b3 :: rest => rfl

theorem decodeJump_append {op : JumpOp} {bs : List Byte} (cs : List Byte) (h : decodeJump op bs ≠ .more) :
    decodeJump op (bs ++ cs) = decodeJump op bs := by
  cases bs with
  | nil => exact absurd rfl h
  | cons b2 rest => rfl

/-- Once the decoder has answered, further bytes do not change its answer. -/
theorem decode_append {bs : List Byte} (cs : List Byte) (h : decode bs ≠ .more) : decode (bs ++ cs) = decode bs := by
  cases bs with
  | nil => exact absurd rfl h
  | cons b1 rest =>
    revert h
    simp only [decode, List.cons_append]
    split
    · split
      · intro _; rfl
      · exact decodeG2_append cs
    · split
      · exact decodeUnary_append cs
      · split
        · exact decodeShift_append cs
        · split
          · split
            · intro _; rfl
            · exact decodeImm16_append cs
          · split
            · exact decodeDirect_append cs
            · split
              · exact decodeJump_append cs
              · intro _; rfl

/-- Three bytes are always enough (R61). -/
theorem decode_three (b1 b2 b3 : Byte) (rest : List Byte) : decode (b1 :: b2 :: b3 :: rest) ≠ .more := by
  simp only [decode, decodeG2, decodeUnary, decodeShift, decodeImm16, decodeDirect, decodeJump]
  repeat' split
  all_goals simp

/-! ### The fetch -/

theorem State.memRead8_lt {s : State} {a : Nat} (h : a < s.config.memSize) : s.memRead8 a = .ok (s.byteAt a) := by
  simp [State.memRead8, h]

theorem Instr.length_le_three (i : Instr) : i.length ≤ 3 := by cases i <;> exact Nat.le_of_ble_eq_true rfl

/-- The fetch reads the instruction whose bytes stand at IP (R90 phases P0 to P2). -/
theorem fetch_done {s : State} {bs : List Byte} {i : Instr} (hs : s.startAllowed = true) (hd : decode bs = .done i)
    (hl : bs.length ≤ 3) (hb : s.holdsBytes s.ip.toNat bs) : fetch s = .ok i := by
  match bs with
  | [] => cases hd
  | [b1] =>
    have h0 := hb 0 (by simp)
    simp at h0
    simp [fetch, hs, fetchFrom, h0.1, h0.2, State.memRead8, hd]
  | [b1, b2] =>
    have h0 := hb 0 (by simp)
    have h1 := hb 1 (by simp)
    simp at h0 h1
    by_cases hm : decode [b1] = .more
    · simp [fetch, hs, fetchFrom, h0.1, h0.2, h1.1, h1.2, State.memRead8, hd, hm]
    · have hd1 : decode [b1] = .done i := hd ▸ (decode_append [b2] hm).symm
      simp [fetch, hs, fetchFrom, h0.1, h0.2, State.memRead8, hd1]
  | [b1, b2, b3] =>
    have h0 := hb 0 (by simp)
    have h1 := hb 1 (by simp)
    have h2 := hb 2 (by simp)
    simp at h0 h1 h2
    by_cases hm : decode [b1] = .more
    · by_cases hm2 : decode [b1, b2] = .more
      · simp [fetch, hs, fetchFrom, h0.1, h0.2, h1.1, h1.2, h2.1, h2.2, State.memRead8, hd, hm, hm2]
      · have hd2 : decode [b1, b2] = .done i := hd ▸ (decode_append [b3] hm2).symm
        simp [fetch, hs, fetchFrom, h0.1, h0.2, h1.1, h1.2, State.memRead8, hd2, hm]
    · have hd1 : decode [b1] = .done i := hd ▸ (decode_append [b2, b3] hm).symm
      simp [fetch, hs, fetchFrom, h0.1, h0.2, State.memRead8, hd1]
  | b1 :: b2 :: b3 :: b4 :: r => simp at hl; omega

/-! ### Placing an instruction -/

theorem State.wake_mem (s : State) : s.wake.mem = s.mem := by simp only [State.wake]; split <;> rfl
theorem State.wake_ip (s : State) : s.wake.ip = s.ip := by simp only [State.wake]; split <;> rfl
theorem State.wake_config (s : State) : s.wake.config = s.config := by simp only [State.wake]; split <;> rfl
theorem State.wake_canStep (s : State) : s.wake.run.canStep = true := by
  simp only [State.wake]; split <;> first | assumption | rfl
theorem State.allowStart_mem (s : State) : s.allowStart.mem = s.mem := by
  simp only [State.allowStart]; split <;> (try split) <;> rfl
theorem State.allowStart_ip (s : State) : s.allowStart.ip = s.ip := by
  simp only [State.allowStart]; split <;> (try split) <;> rfl
theorem State.allowStart_run (s : State) : s.allowStart.run = s.run := by
  simp only [State.allowStart]; split <;> (try split) <;> rfl
theorem State.allowStart_memSize (s : State) : s.allowStart.config.memSize = s.config.memSize := by
  simp only [State.allowStart]; split <;> (try split) <;> rfl
theorem State.allowStart_startAllowed (s : State) : s.allowStart.startAllowed = true := by
  cases h : s.config.codeStarts with
  | none => simp [State.allowStart, State.startAllowed, h]
  | some l => by_cases g : s.ip ∈ l <;> simp [State.allowStart, State.startAllowed, h, g]

end Sys2Proof.Machine
end

