-- ==== Sys2Proof/Tests/Slice0.lean ====
section
/-! SUPPORT. The model's own tests. Expected results are the spec's: the words are written out from the bit patterns of
30_encoding.md (R67 to R73), the steps are lines of 95_test_vectors.md part 2, the smoke tests are R75's lists. The last
part shows, for each statement with hypotheses, concrete values that meet all of them together. -/

namespace Sys2Proof.Tests

open Sys2Proof Sys2Proof.Machine

/-! ### Well-formedness: the one check refuses each kind of ill-formed term (R64, R67) -/

theorem test_wf_refuses_a_base_that_is_no_base :
    (Instr.movR8Base .al .ax).wf = false ∧ (Instr.movR16Base .cx .sp).wf = false ∧
    (Instr.addBaseR16 .cx .ax).wf = false ∧ (Instr.cmpBaseR8 .dx .bl).wf = false := by decide

theorem test_wf_accepts_the_four_bases :
    (Instr.movR8Base .al .bx).wf = true ∧ (Instr.movR16Base .cx .bp).wf = true ∧
    (Instr.addBaseR16 .si .ax).wf = true ∧ (Instr.cmpBaseR8 .di .bl).wf = true := by decide

/-! ### Decoding: every constructor, from a word written out from the spec's pattern -/

theorem test_decode_mov :
    decode [0x10, 0xE3] = .done (.movR8R8 .ah .bl) ∧
    decode [0x11, 0xF8] = .done (.movR16R16 .di .ax) ∧
    decode [0x10, 0x17] = .done (.movR8Base .dl .di) ∧
    decode [0x11, 0x2B] = .done (.movR16Base .bp .bx) ∧
    decode [0x10, 0x45] = .done (.movBaseR8 .bp .al) ∧
    decode [0x11, 0x5E] = .done (.movBaseR16 .si .bx) ∧
    decode [0x10, 0xB0, 0x12] = .done (.movR8Imm8 .dh 0x12) ∧
    decode [0x41, 0x5A, 0x01] = .done (.movR16Imm16 .cx 0x015A) ∧
    decode [0xA4, 0x1D, 0x12] = .done (.movR8Addr .ah 0x121D) ∧
    decode [0xAF, 0x20, 0x22] = .done (.movR16Addr .di 0x2220) ∧
    decode [0xB2, 0x23, 0x32] = .done (.movAddrR8 0x3223 .dl) ∧
    decode [0xBD, 0x26, 0x42] = .done (.movAddrR16 0x4226 .bp) := by decide

theorem test_decode_add :
    decode [0x12, 0xE3] = .done (.addR8R8 .ah .bl) ∧
    decode [0x13, 0xF8] = .done (.addR16R16 .di .ax) ∧
    decode [0x12, 0x17] = .done (.addR8Base .dl .di) ∧
    decode [0x13, 0x2B] = .done (.addR16Base .bp .bx) ∧
    decode [0x12, 0x45] = .done (.addBaseR8 .bp .al) ∧
    decode [0x13, 0x5E] = .done (.addBaseR16 .si .bx) ∧
    decode [0x12, 0xB0, 0x7A] = .done (.addR8Imm8 .dh 0x7A) ∧
    decode [0x49, 0x72, 0x81] = .done (.addR16Imm16 .cx 0x8172) := by decide

theorem test_decode_adc :
    decode [0x14, 0xE3] = .done (.adcR8R8 .ah .bl) ∧
    decode [0x15, 0xF8] = .done (.adcR16R16 .di .ax) ∧
    decode [0x14, 0x17] = .done (.adcR8Base .dl .di) ∧
    decode [0x15, 0x2B] = .done (.adcR16Base .bp .bx) ∧
    decode [0x14, 0x45] = .done (.adcBaseR8 .bp .al) ∧
    decode [0x15, 0x5E] = .done (.adcBaseR16 .si .bx) ∧
    decode [0x14, 0xB0, 0xE2] = .done (.adcR8Imm8 .dh 0xE2) ∧
    decode [0x51, 0x8A, 0x01] = .done (.adcR16Imm16 .cx 0x018A) := by decide

theorem test_decode_sub :
    decode [0x16, 0xE3] = .done (.subR8R8 .ah .bl) ∧
    decode [0x17, 0xF8] = .done (.subR16R16 .di .ax) ∧
    decode [0x16, 0x17] = .done (.subR8Base .dl .di) ∧
    decode [0x17, 0x2B] = .done (.subR16Base .bp .bx) ∧
    decode [0x16, 0x45] = .done (.subBaseR8 .bp .al) ∧
    decode [0x17, 0x5E] = .done (.subBaseR16 .si .bx) ∧
    decode [0x16, 0xB0, 0x4A] = .done (.subR8Imm8 .dh 0x4A) ∧
    decode [0x59, 0xA2, 0x81] = .done (.subR16Imm16 .cx 0x81A2) := by decide

theorem test_decode_sbb :
    decode [0x18, 0xE3] = .done (.sbbR8R8 .ah .bl) ∧
    decode [0x19, 0xF8] = .done (.sbbR16R16 .di .ax) ∧
    decode [0x18, 0x17] = .done (.sbbR8Base .dl .di) ∧
    decode [0x19, 0x2B] = .done (.sbbR16Base .bp .bx) ∧
    decode [0x18, 0x45] = .done (.sbbBaseR8 .bp .al) ∧
    decode [0x19, 0x5E] = .done (.sbbBaseR16 .si .bx) ∧
    decode [0x18, 0xB0, 0xB2] = .done (.sbbR8Imm8 .dh 0xB2) ∧
    decode [0x61, 0xBA, 0x01] = .done (.sbbR16Imm16 .cx 0x01BA) := by decide

theorem test_decode_and :
    decode [0x1A, 0xE3] = .done (.andR8R8 .ah .bl) ∧
    decode [0x1B, 0xF8] = .done (.andR16R16 .di .ax) ∧
    decode [0x1A, 0x17] = .done (.andR8Base .dl .di) ∧
    decode [0x1B, 0x2B] = .done (.andR16Base .bp .bx) ∧
    decode [0x1A, 0x45] = .done (.andBaseR8 .bp .al) ∧
    decode [0x1B, 0x5E] = .done (.andBaseR16 .si .bx) ∧
    decode [0x1A, 0xB0, 0x1A] = .done (.andR8Imm8 .dh 0x1A) ∧
    decode [0x69, 0xD2, 0x81] = .done (.andR16Imm16 .cx 0x81D2) := by decide

theorem test_decode_or :
    decode [0x1C, 0xE3] = .done (.orR8R8 .ah .bl) ∧
    decode [0x1D, 0xF8] = .done (.orR16R16 .di .ax) ∧
    decode [0x1C, 0x17] = .done (.orR8Base .dl .di) ∧
    decode [0x1D, 0x2B] = .done (.orR16Base .bp .bx) ∧
    decode [0x1C, 0x45] = .done (.orBaseR8 .bp .al) ∧
    decode [0x1D, 0x5E] = .done (.orBaseR16 .si .bx) ∧
    decode [0x1C, 0xB0, 0x82] = .done (.orR8Imm8 .dh 0x82) ∧
    decode [0x71, 0xEA, 0x01] = .done (.orR16Imm16 .cx 0x01EA) := by decide

theorem test_decode_xor :
    decode [0x1E, 0xE3] = .done (.xorR8R8 .ah .bl) ∧
    decode [0x1F, 0xF8] = .done (.xorR16R16 .di .ax) ∧
    decode [0x1E, 0x17] = .done (.xorR8Base .dl .di) ∧
    decode [0x1F, 0x2B] = .done (.xorR16Base .bp .bx) ∧
    decode [0x1E, 0x45] = .done (.xorBaseR8 .bp .al) ∧
    decode [0x1F, 0x5E] = .done (.xorBaseR16 .si .bx) ∧
    decode [0x1E, 0xB0, 0xEA] = .done (.xorR8Imm8 .dh 0xEA) ∧
    decode [0x79, 0x02, 0x82] = .done (.xorR16Imm16 .cx 0x8202) := by decide

theorem test_decode_cmp :
    decode [0x20, 0xE3] = .done (.cmpR8R8 .ah .bl) ∧
    decode [0x21, 0xF8] = .done (.cmpR16R16 .di .ax) ∧
    decode [0x20, 0x17] = .done (.cmpR8Base .dl .di) ∧
    decode [0x21, 0x2B] = .done (.cmpR16Base .bp .bx) ∧
    decode [0x20, 0x45] = .done (.cmpBaseR8 .bp .al) ∧
    decode [0x21, 0x5E] = .done (.cmpBaseR16 .si .bx) ∧
    decode [0x20, 0xB0, 0x52] = .done (.cmpR8Imm8 .dh 0x52) ∧
    decode [0x81, 0x1A, 0x02] = .done (.cmpR16Imm16 .cx 0x021A) := by decide

theorem test_decode_inc :
    decode [0x30, 0xC0] = .done (.incR8 .al) ∧
    decode [0x31, 0xC3] = .done (.incR16 .bx) := by decide

theorem test_decode_dec :
    decode [0x30, 0xCE] = .done (.decR8 .dh) ∧
    decode [0x31, 0xC9] = .done (.decR16 .cx) := by decide

theorem test_decode_not :
    decode [0x30, 0xD4] = .done (.notR8 .ah) ∧
    decode [0x31, 0xD7] = .done (.notR16 .di) := by decide

theorem test_decode_neg :
    decode [0x30, 0xDA] = .done (.negR8 .dl) ∧
    decode [0x31, 0xDD] = .done (.negR16 .bp) := by decide

theorem test_decode_mul :
    decode [0x30, 0xE0] = .done (.mulR8 .al) ∧
    decode [0x31, 0xE3] = .done (.mulR16 .bx) := by decide

theorem test_decode_div :
    decode [0x30, 0xEE] = .done (.divR8 .dh) ∧
    decode [0x31, 0xE9] = .done (.divR16 .cx) := by decide

theorem test_decode_shl :
    decode [0x32, 0x04] = .done (.shlR8One .ah) ∧
    decode [0x32, 0x47] = .done (.shlR8Cl .bh) ∧
    decode [0x32, 0x82, 0x56] = .done (.shlR8Imm8 .dl 0x56) ∧
    decode [0x33, 0x05] = .done (.shlR16One .bp) ∧
    decode [0x33, 0x40] = .done (.shlR16Cl .ax) ∧
    decode [0x33, 0x83, 0x7D] = .done (.shlR16Imm8 .bx 0x7D) := by decide

theorem test_decode_shr :
    decode [0x32, 0x0E] = .done (.shrR8One .dh) ∧
    decode [0x32, 0x49] = .done (.shrR8Cl .cl) ∧
    decode [0x32, 0x8C, 0xA4] = .done (.shrR8Imm8 .ah 0xA4) ∧
    decode [0x33, 0x0F] = .done (.shrR16One .di) ∧
    decode [0x33, 0x4A] = .done (.shrR16Cl .dx) ∧
    decode [0x33, 0x8D, 0xCB] = .done (.shrR16Imm8 .bp 0xCB) := by decide

theorem test_decode_jo :
    decode [0xC0, 0xD8] = .done (.jo 0xD8) := by decide

theorem test_decode_jno :
    decode [0xC1, 0xE3] = .done (.jno 0xE3) := by decide

theorem test_decode_jb :
    decode [0xC2, 0xEE] = .done (.jb 0xEE) := by decide

theorem test_decode_jnb :
    decode [0xC3, 0xF9] = .done (.jnb 0xF9) := by decide

theorem test_decode_jz :
    decode [0xC4, 0x04] = .done (.jz 0x04) := by decide

theorem test_decode_jnz :
    decode [0xC5, 0x0F] = .done (.jnz 0x0F) := by decide

theorem test_decode_jbe :
    decode [0xC6, 0x1A] = .done (.jbe 0x1A) := by decide

theorem test_decode_ja :
    decode [0xC7, 0x25] = .done (.ja 0x25) := by decide

theorem test_decode_js :
    decode [0xC8, 0x30] = .done (.js 0x30) := by decide

theorem test_decode_jns :
    decode [0xC9, 0x3B] = .done (.jns 0x3B) := by decide

theorem test_decode_jl :
    decode [0xCC, 0x46] = .done (.jl 0x46) := by decide

theorem test_decode_jge :
    decode [0xCD, 0x51] = .done (.jge 0x51) := by decide

theorem test_decode_jle :
    decode [0xCE, 0x5C] = .done (.jle 0x5C) := by decide

theorem test_decode_jg :
    decode [0xCF, 0x67] = .done (.jg 0x67) := by decide

theorem test_decode_jmp :
    decode [0xD0, 0x72] = .done (.jmp 0x72) := by decide

theorem test_decode_loop :
    decode [0xD1, 0x7D] = .done (.loop 0x7D) := by decide

theorem test_decode_hlt :
    decode [0xF4] = .done .hlt := by decide

/-! ### Reserved encodings (R75) and the bytes they need -/

theorem test_decode_reserved_first_bytes :
    decode [0x00] = .reserved .firstByte ∧ decode [0x0F] = .reserved .firstByte ∧
    decode [0x22] = .reserved .firstByte ∧ decode [0x34] = .reserved .firstByte ∧
    decode [0x88] = .reserved .firstByte ∧ decode [0x9F] = .reserved .firstByte ∧
    decode [0xCA] = .reserved .firstByte ∧ decode [0xCB] = .reserved .firstByte ∧
    decode [0xD2] = .reserved .firstByte ∧ decode [0xF3] = .reserved .firstByte ∧
    decode [0xF5] = .reserved .firstByte ∧ decode [0xFF] = .reserved .firstByte := by decide

theorem test_decode_reserved_second_bytes :
    decode [0x10, 0x00] = .reserved .baseField ∧ decode [0x11, 0x0C] = .reserved .baseField ∧
    decode [0x13, 0x41] = .reserved .baseField ∧ decode [0x11, 0x80] = .reserved .immediateMode ∧
    decode [0x10, 0x81] = .reserved .immediateMode ∧ decode [0x30, 0x06] = .reserved .unaryMode ∧
    decode [0x30, 0xF0] = .reserved .unaryOp ∧ decode [0x31, 0xFF] = .reserved .unaryOp ∧
    decode [0x32, 0xC0] = .reserved .shiftCount ∧ decode [0x32, 0x10] = .reserved .shiftOp ∧
    decode [0x33, 0xB8] = .reserved .shiftOp := by decide

theorem test_decode_asks_for_more :
    decode [] = .more ∧ decode [0x10] = .more ∧ decode [0x10, 0x98] = .more ∧ decode [0x40, 0x34] = .more ∧
    decode [0xA0, 0x00] = .more ∧ decode [0x32, 0x80] = .more ∧ decode [0xD0] = .more := by decide

/-! ### Table words and their placement -/

theorem test_table_words :
    decodeTableWord 16 0x10C0 = some (.movR8R8 .al .al) ∧ decodeTableWord 24 0x800000 = some (.cmpR16Imm16 .ax 0) ∧
    decodeTableWord 24 0x128005 = some (.addR8Imm8 .al 5) ∧ decodeTableWord 8 0xF4 = some .hlt ∧
    decodeTableWord 16 0x1000 = none := by decide

/-! ### The conditions (95_test_vectors.md 2.7) -/

/-- The flags of a row of the table: CF ZF SF OF as the bits of a number below 16, CF the highest. -/
def rowFlags (n : Nat) : Flags := ⟨n.testBit 3, n.testBit 2, n.testBit 1, n.testBit 0, false, false⟩

/-- A column of the table, read downwards, as a number: the first row is the lowest bit. -/
def column (condition : Flags → Bool) : Nat :=
  ((List.range 16).map fun n => (condition (rowFlags n)).toNat * 2 ^ n).sum

theorem test_conditions :
    column condJo = 0xAAAA ∧ column condJno = 0x5555 ∧ column condJb = 0xFF00 ∧
    column condJnb = 0x00FF ∧ column condJz = 0xF0F0 ∧ column condJnz = 0x0F0F ∧
    column condJbe = 0xFFF0 ∧ column condJa = 0x000F ∧ column condJs = 0xCCCC ∧
    column condJns = 0x3333 ∧ column condJl = 0x6666 ∧ column condJge = 0x9999 ∧
    column condJle = 0xF6F6 ∧ column condJg = 0x0909 := by decide

/-! ### Steps -/

/-- A machine of `n` cells that starts at `ip` with an instruction's bytes there and all else zero. -/
def starting (n : Nat) (ip : Word) (bytes : List Byte) : State :=
  { State.powerOn ⟨n, none⟩ with ip := ip }.placeBytes ip.toNat bytes

/-- The next step completes with these registers, flags, IP and RUN, and with these values in these cells. -/
def gives (s : State) (r : Regs) (f : Flags) (ip : Word) (cells : List Host.Cell) (run : RunState) : Bool :=
  match step s with
  | .next t =>
    decide (t.regs = r ∧ t.flags = f ∧ t.ip = ip ∧ t.run = run ∧ t.fault = none) &&
      cells.all fun c => t.byteAt c.1 == c.2
  | .fault _ => false
  | .refused _ => false

/-- The next step raises this fault and changes nothing but FAULT and RUN (R204). -/
def faults (s : State) (cause : FaultCause) (info : Nat) : Bool :=
  match step s with
  | .next t => decide (t = { s with fault := some ⟨cause, info⟩, run := .faulted })
  | .fault _ => false
  | .refused _ => false

theorem test_step_mov_keeps_sibling_half :
    gives { starting 0x10000 0x1000 [0x10, 0xE0] with regs := { Regs.zero with ax := 0x1234 } }
      { Regs.zero with ax := 0x3434 } ⟨false, false, false, false, false, false⟩ 0x1002 [] .running = true := by decide

theorem test_step_mov_stores_low_byte_first :
    gives { starting 0x10000 0x1000 [0x11, 0x4F] with regs := { Regs.zero with cx := 0xBEEF, di := 0x2001 } }
      { Regs.zero with cx := 0xBEEF, di := 0x2001 } ⟨false, false, false, false, false, false⟩ 0x1002 [(0x2001, 0xEF), (0x2002, 0xBE)] .running = true := by decide

theorem test_step_mov_loads_low_byte_first :
    gives { ((starting 0x10000 0x1000 [0x11, 0x13]).setByte 0x2001 0x34).setByte 0x2002 0x12 with regs := { Regs.zero with bx := 0x2001 } }
      { Regs.zero with dx := 0x1234, bx := 0x2001 } ⟨false, false, false, false, false, false⟩ 0x1002 [] .running = true := by decide

theorem test_step_mov_word_load_past_the_end :
    faults { (starting 0x10000 0x1000 [0xA8, 0xFF, 0xFF]).setByte 0xFFFF 0x5A with regs := { Regs.zero with ax := 0x1111 } } .addressError 0x10000 = true := by decide

theorem test_step_mov_word_store_past_the_end :
    faults { starting 0x10000 0x1000 [0x11, 0x43] with regs := { Regs.zero with ax := 0x1234, bx := 0xFFFF } } .addressError 0x10000 = true := by decide

theorem test_step_mov_direct_store_of_high_half :
    gives { starting 0x10000 0x1000 [0xB6, 0x08, 0x20] with regs := { Regs.zero with dx := 0xEE11 } }
      { Regs.zero with dx := 0xEE11 } ⟨false, false, false, false, false, false⟩ 0x1003 [(0x2008, 0xEE)] .running = true := by decide

theorem test_step_add_signed_overflow :
    gives { starting 0x10000 0x1000 [0x12, 0xC3] with regs := { Regs.zero with ax := 0x007F, bx := 0x0001 } }
      { Regs.zero with ax := 0x0080, bx := 0x0001 } ⟨false, false, true, true, true, false⟩ 0x1002 [] .running = true := by decide

theorem test_step_add_to_memory_word :
    gives { (starting 0x10000 0x1000 [0x13, 0x57]).setByte 0x2000 0xFF with regs := { Regs.zero with dx := 0x0001, di := 0x2000 } }
      { Regs.zero with dx := 0x0001, di := 0x2000 } ⟨false, false, false, false, true, true⟩ 0x1002 [(0x2000, 0x00), (0x2001, 0x01)] .running = true := by decide

theorem test_step_adc_carry_in_and_out :
    gives { starting 0x10000 0x1000 [0x14, 0xC3] with regs := { Regs.zero with ax := 0x00FF, bx := 0x00FF }, flags := ⟨true, false, false, false, false, false⟩ }
      { Regs.zero with ax := 0x00FF, bx := 0x00FF } ⟨true, false, true, false, true, true⟩ 0x1002 [] .running = true := by decide

theorem test_step_adc_to_memory :
    gives { (starting 0x10000 0x1000 [0x14, 0x4B]).setByte 0x2000 0xFF with regs := { Regs.zero with bx := 0x2000 }, flags := ⟨true, false, false, false, false, false⟩ }
      { Regs.zero with bx := 0x2000 } ⟨true, true, false, false, true, true⟩ 0x1002 [(0x2000, 0x00)] .running = true := by decide

theorem test_step_sub_borrow_and_overflow :
    gives { starting 0x10000 0x1000 [0x16, 0xC3] with regs := { Regs.zero with bx := 0x0080 } }
      { Regs.zero with ax := 0x0080, bx := 0x0080 } ⟨true, false, true, true, false, false⟩ 0x1002 [] .running = true := by decide

theorem test_step_sub_from_memory_word :
    gives { (starting 0x10000 0x1000 [0x17, 0x4B]).setByte 0x2001 0x01 with regs := { Regs.zero with cx := 0x0001, bx := 0x2000 } }
      { Regs.zero with cx := 0x0001, bx := 0x2000 } ⟨false, false, false, false, true, true⟩ 0x1002 [(0x2000, 0xFF), (0x2001, 0x00)] .running = true := by decide

theorem test_step_sbb_borrow_in_and_out :
    gives { starting 0x10000 0x1000 [0x18, 0xC3] with regs := { Regs.zero with bx := 0x00FF }, flags := ⟨true, false, false, false, false, false⟩ }
      { Regs.zero with bx := 0x00FF } ⟨true, true, false, false, true, true⟩ 0x1002 [] .running = true := by decide

theorem test_step_sbb_same_register :
    gives { starting 0x10000 0x1000 [0x19, 0xC0] with regs := { Regs.zero with ax := 0x5555 }, flags := ⟨true, false, false, false, false, false⟩ }
      { Regs.zero with ax := 0xFFFF } ⟨true, false, true, false, true, true⟩ 0x1002 [] .running = true := by decide

theorem test_step_cmp_memory_destination_not_stored :
    gives { (starting 0x10000 0x1000 [0x20, 0x46]).setByte 0x1302 0x10 with regs := { Regs.zero with ax := 0x00FF, si := 0x1302 } }
      { Regs.zero with ax := 0x00FF, si := 0x1302 } ⟨true, false, false, false, true, true⟩ 0x1002 [(0x1302, 0x10)] .running = true := by decide

theorem test_step_cmp_word_past_the_end :
    faults { (starting 0x10000 0x1000 [0x21, 0x03]).setByte 0xFFFF 0x01 with regs := { Regs.zero with bx := 0xFFFF } } .addressError 0x10000 = true := by decide

theorem test_step_neg_zero_clears_carry :
    gives { starting 0x10000 0x1000 [0x30, 0xD8] with flags := ⟨true, false, false, false, false, false⟩ }
      Regs.zero ⟨false, true, false, false, false, true⟩ 0x1002 [] .running = true := by decide

theorem test_step_neg_most_negative :
    gives { starting 0x10000 0x1000 [0x31, 0xD8] with regs := { Regs.zero with ax := 0x8000 } }
      { Regs.zero with ax := 0x8000 } ⟨true, false, true, true, false, true⟩ 0x1002 [] .running = true := by decide

theorem test_step_inc_keeps_carry :
    gives { starting 0x10000 0x1000 [0x30, 0xC0] with regs := { Regs.zero with ax := 0x00FF } }
      Regs.zero ⟨false, true, false, false, true, true⟩ 0x1002 [] .running = true := by decide

theorem test_step_inc_high_half :
    gives { starting 0x10000 0x1000 [0x30, 0xC4] with regs := { Regs.zero with ax := 0xFFFF } }
      { Regs.zero with ax := 0x00FF } ⟨false, true, false, false, true, true⟩ 0x1002 [] .running = true := by decide

theorem test_step_dec_keeps_carry :
    gives { starting 0x10000 0x1000 [0x30, 0xC8] with flags := ⟨true, false, false, false, false, false⟩ }
      { Regs.zero with ax := 0x00FF } ⟨true, false, true, false, true, true⟩ 0x1002 [] .running = true := by decide

theorem test_step_dec_overflow :
    gives { starting 0x10000 0x1000 [0x31, 0xC9] with regs := { Regs.zero with cx := 0x8000 } }
      { Regs.zero with cx := 0x7FFF } ⟨false, false, false, true, true, true⟩ 0x1002 [] .running = true := by decide

theorem test_step_mul_writes_only_carry_and_overflow :
    gives { starting 0x10000 0x1000 [0x30, 0xE3] with regs := { Regs.zero with ax := 0xFF00, bx := 0x00FF }, flags := ⟨true, true, true, true, true, true⟩ }
      { Regs.zero with bx := 0x00FF } ⟨false, true, true, false, true, true⟩ 0x1002 [] .running = true := by decide

theorem test_step_mul_operand_is_a_destination :
    gives { starting 0x10000 0x1000 [0x31, 0xE2] with regs := { Regs.zero with ax := 0x0002, dx := 0x0003 } }
      { Regs.zero with ax := 0x0006 } ⟨false, false, false, false, false, false⟩ 0x1002 [] .running = true := by decide

theorem test_step_div_largest_quotient :
    gives { starting 0x10000 0x1000 [0x30, 0xEB] with regs := { Regs.zero with ax := 0x0FFF, bx := 0x0010 } }
      { Regs.zero with ax := 0x0FFF, bx := 0x0010 } ⟨false, false, false, false, false, false⟩ 0x1002 [] .running = true := by decide

theorem test_step_div_quotient_does_not_fit :
    faults { starting 0x10000 0x1000 [0x30, 0xEB] with regs := { Regs.zero with ax := 0xFF00, bx := 0x00FF } } .divideError 0x1000 = true := by decide

theorem test_step_div_by_a_part_of_itself :
    gives { starting 0x10000 0x1000 [0x31, 0xE8] with regs := { Regs.zero with ax := 0x0003 } }
      { Regs.zero with ax := 0x0001 } ⟨false, false, false, false, false, false⟩ 0x1002 [] .running = true := by decide

theorem test_step_and_keeps_auxiliary_carry :
    gives { starting 0x10000 0x1000 [0x1A, 0xC3] with regs := { Regs.zero with ax := 0x00F0, bx := 0x000F }, flags := ⟨true, true, true, true, true, true⟩ }
      { Regs.zero with bx := 0x000F } ⟨false, true, false, false, true, true⟩ 0x1002 [] .running = true := by decide

theorem test_step_and_to_memory :
    gives { (starting 0x10000 0x1000 [0x1A, 0x43]).setByte 0x2000 0x3C with regs := { Regs.zero with ax := 0x000F, bx := 0x2000 } }
      { Regs.zero with ax := 0x000F, bx := 0x2000 } ⟨false, false, false, false, false, true⟩ 0x1002 [(0x2000, 0x0C)] .running = true := by decide

theorem test_step_or_keeps_auxiliary_carry :
    gives { starting 0x10000 0x1000 [0x1C, 0xC3] with regs := { Regs.zero with ax := 0x00F0, bx := 0x000F }, flags := ⟨true, false, false, true, true, false⟩ }
      { Regs.zero with ax := 0x00FF, bx := 0x000F } ⟨false, false, true, false, true, true⟩ 0x1002 [] .running = true := by decide

theorem test_step_or_from_memory :
    gives { (starting 0x10000 0x1000 [0x1C, 0x0E]).setByte 0x2000 0x02 with regs := { Regs.zero with cx := 0x0001, si := 0x2000 } }
      { Regs.zero with cx := 0x0003, si := 0x2000 } ⟨false, false, false, false, false, true⟩ 0x1002 [] .running = true := by decide

theorem test_step_xor_clears :
    gives { starting 0x10000 0x1000 [0x1F, 0xC0] with regs := { Regs.zero with ax := 0x1234 }, flags := ⟨true, true, true, true, true, true⟩ }
      Regs.zero ⟨false, true, false, false, true, true⟩ 0x1002 [] .running = true := by decide

theorem test_step_xor_immediate :
    gives { starting 0x10000 0x1000 [0x7B, 0xFF, 0xFF] with regs := { Regs.zero with bx := 0x7FFF } }
      { Regs.zero with bx := 0x8000 } ⟨false, false, true, false, false, true⟩ 0x1003 [] .running = true := by decide

theorem test_step_not_writes_no_flag :
    gives { starting 0x10000 0x1000 [0x30, 0xD0] with regs := { Regs.zero with ax := 0x1200 }, flags := ⟨true, true, true, true, true, true⟩ }
      { Regs.zero with ax := 0x12FF } ⟨true, true, true, true, true, true⟩ 0x1002 [] .running = true := by decide

theorem test_step_not_high_half :
    gives { starting 0x10000 0x1000 [0x30, 0xD5] with regs := { Regs.zero with cx := 0x0F55 } }
      { Regs.zero with cx := 0xF055 } ⟨false, false, false, false, false, false⟩ 0x1002 [] .running = true := by decide

theorem test_step_shl_one_overflow :
    gives { starting 0x10000 0x1000 [0x32, 0x00] with regs := { Regs.zero with ax := 0x0040 } }
      { Regs.zero with ax := 0x0080 } ⟨false, false, true, true, false, false⟩ 0x1002 [] .running = true := by decide

theorem test_step_shl_count_is_cl_only :
    gives { starting 0x10000 0x1000 [0x32, 0x40] with regs := { Regs.zero with ax := 0x0041, cx := 0x0001 } }
      { Regs.zero with ax := 0x0082, cx := 0x0001 } ⟨false, false, true, true, false, true⟩ 0x1002 [] .running = true := by decide

theorem test_step_shl_past_the_width :
    gives { starting 0x10000 0x1000 [0x33, 0x83, 0x11] with regs := { Regs.zero with bx := 0x0001 }, flags := ⟨true, false, false, false, false, false⟩ }
      Regs.zero ⟨false, true, false, false, false, true⟩ 0x1003 [] .running = true := by decide

theorem test_step_shl_count_read_first :
    gives { starting 0x10000 0x1000 [0x32, 0x41] with regs := { Regs.zero with cx := 0x0003 } }
      { Regs.zero with cx := 0x0018 } ⟨false, false, false, false, false, true⟩ 0x1002 [] .running = true := by decide

theorem test_step_shr_one_overflow_is_the_old_sign :
    gives { starting 0x10000 0x1000 [0x32, 0x08] with regs := { Regs.zero with ax := 0x0081 } }
      { Regs.zero with ax := 0x0040 } ⟨true, false, false, true, false, false⟩ 0x1002 [] .running = true := by decide

theorem test_step_shr_keeps_overflow :
    gives { starting 0x10000 0x1000 [0x32, 0x48] with regs := { Regs.zero with ax := 0x0123, cx := 0x0004 }, flags := ⟨false, false, false, true, false, false⟩ }
      { Regs.zero with ax := 0x0102, cx := 0x0004 } ⟨false, false, false, true, false, false⟩ 0x1002 [] .running = true := by decide

theorem test_step_shr_by_the_width :
    gives { starting 0x10000 0x1000 [0x33, 0x88, 0x10] with regs := { Regs.zero with ax := 0x8000 } }
      Regs.zero ⟨true, true, false, false, false, true⟩ 0x1003 [] .running = true := by decide

theorem test_step_jmp_target_wraps :
    gives (starting 0x10000 0xFFFE [0xD0, 0x10])
      Regs.zero ⟨false, false, false, false, false, false⟩ 0x0010 [] .running = true := by decide

theorem test_step_jmp_target_wraps_below_zero :
    gives (starting 0x10000 0x0010 [0xD0, 0x80])
      Regs.zero ⟨false, false, false, false, false, false⟩ 0xFF92 [] .running = true := by decide

theorem test_step_jnz_backward :
    gives (starting 0x10000 0x1023 [0xC5, 0xEA])
      Regs.zero ⟨false, false, false, false, false, false⟩ 0x100F [] .running = true := by decide

theorem test_step_jge_not_taken :
    gives { starting 0x10000 0x1000 [0xCD, 0x02] with flags := ⟨false, false, true, false, false, false⟩ }
      Regs.zero ⟨false, false, true, false, false, false⟩ 0x1002 [] .running = true := by decide

theorem test_step_jbe_taken_on_carry :
    gives { starting 0x10000 0x1000 [0xC6, 0x0A] with flags := ⟨true, false, false, false, false, false⟩ }
      Regs.zero ⟨true, false, false, false, false, false⟩ 0x100C [] .running = true := by decide

theorem test_step_loop_ends_at_zero :
    gives { starting 0x10000 0x1000 [0xD1, 0xFC] with regs := { Regs.zero with cx := 0x0001 }, flags := ⟨true, true, true, true, true, true⟩ }
      Regs.zero ⟨true, true, true, true, true, true⟩ 0x1002 [] .running = true := by decide

theorem test_step_loop_from_zero_wraps :
    gives (starting 0x10000 0x1000 [0xD1, 0xFC])
      { Regs.zero with cx := 0xFFFF } ⟨false, false, false, false, false, false⟩ 0x0FFE [] .running = true := by decide

theorem test_step_hlt_at_the_last_address :
    gives (starting 0x10000 0xFFFF [0xF4])
      Regs.zero ⟨false, false, false, false, false, false⟩ 0x0000 [] .halted = true := by decide

theorem test_step_reserved_mode_byte :
    faults (starting 0x10000 0x1000 [0x10, 0x81, 0x00]) .invalidAddressError 0x1000 = true := by decide

theorem test_step_zeroed_memory_is_reserved :
    faults (starting 0x10000 0x1000 [0x00]) .invalidAddressError 0x1000 = true := by decide

theorem test_step_fetch_past_the_end :
    faults (starting 0x10000 0xFFFF [0xD0]) .addressError 0x10000 = true := by decide

theorem test_step_decode_before_the_third_byte :
    faults (starting 0x10000 0xFFFE [0x10, 0x81]) .invalidAddressError 0xFFFE = true := by decide

theorem test_step_fetch_ends_at_the_last_address :
    gives (starting 0x10000 0xFFFD [0x40, 0x34, 0x12])
      { Regs.zero with ax := 0x1234 } ⟨false, false, false, false, false, false⟩ 0x0000 [] .running = true := by decide

theorem test_step_small_memory_fetch :
    faults (starting 0x8000 0x7FFF [0x31]) .addressError 0x8000 = true := by decide

/-! ### CODE_STARTS (95_test_vectors.md 2.13) and the host operations (2.14) -/

theorem test_code_starts_stops_the_middle_of_an_instruction :
    faults { starting 0x10000 0x1001 [0xF4] with config := ⟨0x10000, some [0x1000, 0x1003]⟩ }
      .invalidAddressError 0x1001 = true := by decide

theorem test_code_starts_allows_a_listed_address :
    gives { starting 0x10000 0x1003 [0xD0, 0xFC] with config := ⟨0x10000, some [0x1000, 0x1003]⟩ }
      Regs.zero Flags.clear 0x1001 [] .running = true := by decide

theorem test_first_step_after_power_on : faults State.reset .invalidAddressError 0 = true := by decide

/-- The cells FFFE and FFFF after a host write there, or the error's info (H8, H9). -/
def written (r : Except FaultRecord State) : Except Nat (Byte × Byte) :=
  match r with
  | .ok t => .ok (t.byteAt 0xFFFE, t.byteAt 0xFFFF)
  | .error f => .error f.info

theorem test_host_write_up_to_the_end :
    written (State.reset.writeMemory 0xFFFE [0x11, 0x22]) = .ok (0x11, 0x22) ∧
    written (State.reset.writeMemory 0xFFFE [0x11, 0x22, 0x33]) = .error 0x10000 := ⟨rfl, rfl⟩

theorem test_host_read_up_to_the_end :
    State.reset.readMemory 0xFFFF 1 = .ok [0] ∧
    State.reset.readMemory 0xFFFF 2 = .error ⟨.addressError, 0x10000⟩ ∧
    State.reset.readMemory 0x10000 0 = .ok [] := ⟨rfl, rfl, rfl⟩

theorem test_host_run_without_budget :
    (State.reset.hostRun 0).n = 0 ∧ (State.reset.hostRun 0).haltedNormally = false ∧
    (State.reset.hostRun 0).budgetExhausted = true := by decide

theorem test_host_run_of_a_halted_core :
    ({ State.reset with run := .halted }.hostRun 5).n = 0 ∧
    ({ State.reset with run := .halted }.hostRun 5).haltedNormally = true ∧
    ({ State.reset with run := .halted }.hostRun 5).budgetExhausted = false := by decide

theorem test_host_run_reaches_hlt :
    ((starting 0x10000 0x1000 [0x31, 0xC0, 0xF4]).hostRun 10).n = 2 ∧
    ((starting 0x10000 0x1000 [0x31, 0xC0, 0xF4]).hostRun 10).final.ip = 0x1003 ∧
    ((starting 0x10000 0x1000 [0x31, 0xC0, 0xF4]).hostRun 10).final.reg16 .ax = 1 := by decide

/-! ### Placing a table word -/

theorem test_placed_word_runs_first_after_reset :
    gives (State.reset.withFetchWord 24 0x400510) { Regs.zero with ax := 0x1005 } Flags.clear 3 [] .running = true := by
  decide

theorem test_placed_word_runs_on_a_stopped_core :
    gives ({ State.reset with run := .faulted, fault := some ⟨.divideError, 7⟩,
                              config := ⟨0x10000, some []⟩ }.withFetchWord 8 0xF4)
      Regs.zero Flags.clear 1 [] .halted = true := by decide

/-! ### Witnesses: for each statement with hypotheses, values that meet all of them together

A machine of eight cells serves most of them: small enough that the edge of memory is at hand. -/

/-- Eight cells, zero but for a few. -/
def small (mem : Memory) : State := { State.powerOn ⟨8, none⟩ with mem := mem }

/-- A core that may step, with these bytes at IP, as the fetch statements ask. -/
def CanFetch (s : State) (bytes : List Byte) : Prop :=
  s.run.canStep = true ∧ s.startAllowed = true ∧ s.holdsBytes s.ip.toNat bytes

theorem holdsBytes_of_all {s : State} {a : Nat} {bs : List Byte}
    (h : (List.range bs.length).all fun k => decide (a + k < s.config.memSize) && s.byteAt (a + k) == bs.getD k 0) :
    s.holdsBytes a bs := by
  intro k hk
  have hk' := List.all_eq_true.mp h k (List.mem_range.mpr hk)
  simpa [hk] using hk'

theorem witness_DecodeOfEncodeIsTheInstruction :
    (Instr.movR8Base .al .si).wf = true ∧ (Instr.xorBaseR16 .sp .ax).wf = false := by decide

theorem witness_DecodedBytesAreTheEncoding :
    decode [0xF4] = .done .hlt ∧ decode [0x12, 0x80, 0xFF, 0x00] = .done (.addR8Imm8 .al 0xFF) := by decide

theorem witness_ReservedEncodingsAreExactlyTheListed_first_byte :
    CanFetch (small []) [0x00] ∧ reservedFirst 0 = true :=
  ⟨⟨by decide, by decide, holdsBytes_of_all (by decide)⟩, by decide⟩

theorem witness_ReservedEncodingsAreExactlyTheListed_pair :
    CanFetch (small [(0, 0x10)]) [0x10, 0x00] ∧ reservedPair 0x10 0x00 = true :=
  ⟨⟨by decide, by decide, holdsBytes_of_all (by decide)⟩, by decide⟩

theorem witness_LengthFollowsFromTheFirstTwoBytes :
    decode [0xF4, 0x00] = .done .hlt ∧ decode [0x80, 0xFF, 0xFF] = .done (.cmpR16Imm16 .ax 0xFFFF) := by decide

theorem witness_StepExecutesTheDecodedInstruction :
    CanFetch { small [(7, 0xF4)] with ip := 7 } [0xF4] ∧ decode [0xF4] = .done .hlt ∧ [0xF4#8].length = Instr.hlt.length :=
  ⟨⟨by decide, by decide, holdsBytes_of_all (by decide)⟩, by decide, by decide⟩

theorem witness_StoppedCoreRefusesTheStep :
    ({ small [] with run := .halted }).run = .halted ∧ ({ small [] with run := .faulted }).run = .faulted ∧
    ({ small [] with run := .faulted }).run.canStep = false ∧
    (small []).writeMemory 7 [1] = .ok (small [(7, 1)]) := ⟨rfl, rfl, rfl, rfl⟩

theorem witness_FetchFaultsComeInOrder_start :
    (small []).run.canStep = true ∧ ({ small [] with config := ⟨8, some [1]⟩ }).startAllowed = false := by decide

theorem witness_FetchFaultsComeInOrder_first_byte_missing :
    ({ small [] with ip := 8 }).startAllowed = true ∧
    ({ small [] with ip := 8 }).config.memSize ≤ ({ small [] with ip := 8 }).ip.toNat := by decide

theorem witness_FetchFaultsComeInOrder_first_byte :
    CanFetch (small []) [0x00] ∧ decode [0x00] = .reserved .firstByte :=
  ⟨⟨by decide, by decide, holdsBytes_of_all (by decide)⟩, by decide⟩

theorem witness_FetchFaultsComeInOrder_second_byte_missing :
    CanFetch { small [(7, 0xD0)] with ip := 7 } [0xD0] ∧ decode [0xD0] = .more ∧
    ({ small [(7, 0xD0)] with ip := 7 }).config.memSize ≤ ({ small [(7, 0xD0)] with ip := 7 }).ip.toNat + 1 :=
  ⟨⟨by decide, by decide, holdsBytes_of_all (by decide)⟩, by decide, by decide⟩

theorem witness_FetchFaultsComeInOrder_second_byte :
    CanFetch { small [(6, 0x10), (7, 0x81)] with ip := 6 } [0x10, 0x81] ∧ decode [0x10] = .more ∧
    decode [0x10, 0x81] = .reserved .immediateMode :=
  ⟨⟨by decide, by decide, holdsBytes_of_all (by decide)⟩, by decide, by decide⟩

theorem witness_FetchFaultsComeInOrder_third_byte_missing :
    CanFetch { small [(6, 0x40), (7, 0x34)] with ip := 6 } [0x40, 0x34] ∧ decode [0x40] = .more ∧
    decode [0x40, 0x34] = .more ∧
    ({ small [(6, 0x40), (7, 0x34)] with ip := 6 }).config.memSize ≤
      ({ small [(6, 0x40), (7, 0x34)] with ip := 6 }).ip.toNat + 2 :=
  ⟨⟨by decide, by decide, holdsBytes_of_all (by decide)⟩, by decide, by decide, by decide⟩

theorem witness_FaultsArePrecise :
    step (small []) = .next ((small []).raise ⟨.invalidAddressError, 0⟩) ∧
    ((small []).raise ⟨.invalidAddressError, 0⟩).run = .faulted := ⟨rfl, rfl⟩

theorem witness_EveryStepKeepsTheInvariant :
    (small [(0, 0xF4)]).wf ∧ step (small [(0, 0xF4)]) = .next ((small [(0, 0xF4)]).halt 1) := ⟨by decide, rfl⟩

theorem witness_ResetHasTheInvariant : Config.wf ⟨1, some [0, 0xFFFF]⟩ := by decide

theorem witness_RunStateMovesAsTheTableSays :
    (small []).run.canStep = true ∧ fetch (small []) = .error ⟨.invalidAddressError, 0⟩ ∧
    fetch (small [(0, 0xF4)]) = .ok .hlt ∧
    fetch (small [(0, 0x31), (1, 0xC0)]) = .ok (.incR16 .ax) ∧ Instr.incR16 .ax ≠ .hlt ∧
    ({ small [] with run := .halted }).run.canStep = false := ⟨rfl, rfl, rfl, rfl, by decide, rfl⟩

theorem witness_PowerOnZeroesEverything : Config.wf Config.standard ∧ Config.wf ⟨1, none⟩ := by decide

theorem witness_HostMemoryAccessIsAllOrNothing :
    6 + 2 ≤ (small []).config.memSize ∧ (small []).config.memSize < 7 + 2 ∧ Memory.wf (small [(7, 1)]).mem ∧
    8 + ([] : List Byte).length ≤ (small []).config.memSize := by decide

theorem witness_ClearMemoryZeroesEveryCell :
    ({ small [(7, 1)] with ip := 7 }).run.canStep = true ∧
    ({ small [(7, 1)] with ip := 7 }).ip.toNat < ({ small [(7, 1)] with ip := 7 }).config.memSize := by decide

theorem witness_RunStepsUntilStoppedOrOutOfBudget :
    0 < ((small [(0, 0xD0), (1, 0xFE)]).hostRun 1).trace.length ∧
    ((small [(0, 0xD0), (1, 0xFE)]).hostRun 1).budgetExhausted = true := by decide

theorem witness_NextFetchSeesTheHostsWrite :
    Memory.wf (small []).mem ∧ (small []).run.canStep = true ∧ (small []).startAllowed = true ∧
    Instr.hlt.wf = true ∧ (small []).writeMemory (small []).ip.toNat (encode .hlt) = .ok (small [(0, 0xF4)]) :=
  ⟨by decide, rfl, rfl, rfl, rfl⟩

theorem witness_PlacedTableWordRunsNext :
    Memory.wf (small []).mem ∧ ({ small [] with ip := 5 }).ip.toNat + 2 < (small []).config.memSize ∧
    decodeTableWord 8 0xF4 = some .hlt := by decide

theorem witness_instruction_frames :
    exec (.movBaseR8 .di .al) { small [] with regs := { Regs.zero with di := 7, ax := 9 } } =
      .next { small [(7, 9)] with regs := { Regs.zero with di := 7, ax := 9 }, ip := 2, run := .running } ∧
    (Instr.movBaseR8 .di .al).view.storeRange { small [] with regs := { Regs.zero with di := 7, ax := 9 } } =
      some (7, 1) ∧
    (Instr.incR16 .cx).view.storeRange (small []) = none ∧
    (Instr.incR16 .cx).view.writesWord .ax = false ∧ (Instr.incR8 .ah).view.writesByte .al = false :=
  ⟨rfl, rfl, rfl, rfl, rfl⟩

theorem witness_IpAdvancesByTheLengthOrToTheTarget :
    takesBranch { small [] with flags := { Flags.clear with zf := true } } .jz = true ∧
    takesBranch (small []) .jz = false ∧ takesBranch { small [] with regs := { Regs.zero with cx := 1 } } .loop = false ∧
    exec (.jump .jz 0x80) (small []) = .next ((small []).complete 2) ∧ ((small []).complete 2).run ≠ .faulted ∧
    exec (.movR16Addr .ax 7) (small []) = .next ((small []).raise ⟨.addressError, 8⟩) ∧
    ((small []).raise ⟨.addressError, 8⟩).run = .faulted :=
  ⟨rfl, rfl, rfl, rfl, by decide, rfl, rfl⟩

theorem witness_OnlyMemoryOperandsAndDivFault :
    exec (.movR8Addr .al 8) (small []) = .next ((small []).raise ⟨.addressError, 8⟩) ∧
    exec (.divR16 .bx) (small []) = .next ((small []).raise ⟨.divideError, 0⟩) ∧
    ((small []).raise ⟨.divideError, 0⟩).run = .faulted := ⟨rfl, rfl, rfl⟩

theorem witness_ByteRegistersAliasHalvesOfWords : Reg16.si ≠ Reg8.parent .ah ∧ Reg16.cx ≠ Reg8.parent .al := by decide

theorem witness_MemReadChecksThenReadsLittleEndian :
    (small []).config.memSize ≤ 8 ∧ 7 < (small []).config.memSize ∧ (small []).config.memSize ≤ 7 + 1 ∧
    6 + 1 < (small []).config.memSize := by decide

theorem witness_MemWriteStoresTheWholeOperandOrNothing : Memory.wf (small [(0, 1), (7, 2)]).mem := by decide

/-- The two-operand rules: a form whose memory operand exists, and one whose does not, at each width and at the last
cells. -/
theorem witness_two_operand_rules :
    (View.two8 .add (.memReg .bx .al)).badCell { small [] with regs := { Regs.zero with bx := 7 } } = none ∧
    (View.two16 .add (.regMem .cx .bx)).badCell { small [] with regs := { Regs.zero with bx := 6 } } = none ∧
    (View.two16 .add (.regImm .cx 5)).badCell (small []) = none ∧
    (View.two8 .add (.memReg .bx .al)).badCell { small [] with regs := { Regs.zero with bx := 8 } } = some 8 ∧
    (View.two16 .add (.regMem .cx .bx)).badCell { small [] with regs := { Regs.zero with bx := 7 } } = some 8 ∧
    (View.two16 .add (.regMem .cx .bx)).badCell { small [] with regs := { Regs.zero with bx := 0xFFFF } } =
      some 0xFFFF := by decide

theorem witness_MovCopiesTheSource :
    (7#16).toNat < (small []).config.memSize ∧ (6#16).toNat + 1 < (small []).config.memSize ∧
    (View.load8 .al 8).badCell (small []) = some 8 ∧ (View.load16 .ax 7).badCell (small []) = some 8 ∧
    (View.store8 9 .al).badCell (small []) = some 9 ∧ (View.store16 7 .ax).badCell (small []) = some 8 := by decide

theorem witness_NegSubtractsFromZero : (8 = 8 ∨ 8 = 16) ∧ 128 < 2 ^ 8 ∧ (16 = 8 ∨ 16 = 16) ∧ 0 < 2 ^ 16 := by decide

theorem witness_DivStoresQuotientAndRemainderOrFaults :
    (small []).reg8 .bl = 0 ∧ ((small []).reg8 .bl).toNat ≤ ((small []).reg8 .ah).toNat ∧
    (({ small [] with regs := { Regs.zero with ax := 0xFEFF, bx := 0xFF } }).reg8 .ah).toNat <
      (({ small [] with regs := { Regs.zero with ax := 0xFEFF, bx := 0xFF } }).reg8 .bl).toNat ∧
    (({ small [] with regs := { Regs.zero with bx := 1 } }).reg16 .dx).toNat <
      (({ small [] with regs := { Regs.zero with bx := 1 } }).reg16 .bx).toNat ∧
    ((small []).reg16 .dx).toNat ≤ ((small []).reg16 .dx).toNat := by decide

theorem witness_DivUndoesMul :
    Reg16.cx ≠ .ax ∧ Reg16.cx ≠ .dx ∧ ({ small [] with regs := { Regs.zero with cx := 1 } }).reg16 .cx ≠ 0 ∧
    Reg8.cl ≠ .al ∧ Reg8.cl ≠ .ah ∧ ({ small [] with regs := { Regs.zero with cx := 1 } }).reg8 .cl ≠ 0 := by decide

theorem witness_shift_rules :
    (small []).shiftCount .cl = 0 ∧ (small []).shiftCount (.imm8 0) = 0 ∧ 1 ≤ (small []).shiftCount .one ∧
    1 ≤ ({ small [] with regs := { Regs.zero with cx := 0xFF } }).shiftCount .cl ∧
    1 ≤ (small []).shiftCount (.imm8 0xFF) := by decide

/-- The statements over a width: both widths are meant. -/
theorem witness_widths : ((8 : Nat) = 8 ∨ (8 : Nat) = 16) ∧ ((16 : Nat) = 8 ∨ (16 : Nat) = 16) := by decide

theorem witness_ArithmeticPropertiesHold :
    exec (.two8 .cmp (.regReg .al .bl)) (small []) =
      .next { small [] with flags := ⟨false, true, false, false, false, true⟩, ip := 2, run := .running } ∧
    exec (.two8 .sub (.regReg .al .bl)) (small []) =
      .next { small [] with flags := ⟨false, true, false, false, false, true⟩, ip := 2, run := .running } ∧
    exec (.two16 .cmp (.regImm .ax 0)) (small []) =
      .next { small [] with flags := ⟨false, true, false, false, false, true⟩, ip := 3, run := .running } ∧
    exec (.two16 .sub (.regImm .ax 0)) (small []) =
      .next { small [] with flags := ⟨false, true, false, false, false, true⟩, ip := 3, run := .running } :=
  ⟨rfl, rfl, rfl, rfl⟩

theorem witness_EntryAndParametersAreOutOfReach : exec .hlt (small []) = .next ((small []).halt 1) := rfl

end Sys2Proof.Tests
end

/-! ## The state (10_state.md): the moves of RUN, and byte registers as halves of words -/

namespace Sys2Proof.Machine

/-! ### No instruction reads RUN

Every way a step ends writes RUN, and nothing before that reads it; so `fetch` and `exec` answer the same from
two states that differ in RUN only. -/

/-- The state with another value of RUN. -/
def State.withRun (s : State) (r : RunState) : State := { s with run := r }

@[simp] theorem State.withRun_flags (s : State) (r : RunState) : (s.withRun r).flags = s.flags := rfl
@[simp] theorem State.setFlags_withRun (s : State) (r : RunState) (f : Flags) :
    (s.withRun r).setFlags f = (s.setFlags f).withRun r := rfl
@[simp] theorem State.complete_withRun (s : State) (r : RunState) (n : Nat) :
    (s.withRun r).complete n = s.complete n := rfl
@[simp] theorem State.readLoc8_withRun (s : State) (r : RunState) (l : Loc8) :
    (s.withRun r).readLoc8 l = s.readLoc8 l := rfl
@[simp] theorem State.readLoc16_withRun (s : State) (r : RunState) (l : Loc16) :
    (s.withRun r).readLoc16 l = s.readLoc16 l := rfl
@[simp] theorem State.readOp8_withRun (s : State) (r : RunState) (o : Operand8) :
    (s.withRun r).readOp8 o = s.readOp8 o := rfl
@[simp] theorem State.readOp16_withRun (s : State) (r : RunState) (o : Operand16) :
    (s.withRun r).readOp16 o = s.readOp16 o := rfl
@[simp] theorem State.reg8_withRun (s : State) (r : RunState) (q : Reg8) : (s.withRun r).reg8 q = s.reg8 q := rfl
@[simp] theorem State.reg16_withRun (s : State) (r : RunState) (q : Reg16) : (s.withRun r).reg16 q = s.reg16 q := rfl

@[simp] theorem State.memWrite8_withRun (s : State) (r : RunState) (a : Nat) (v : Byte) :
    (s.withRun r).memWrite8 a v = (s.memWrite8 a v).map (·.withRun r) := by
  unfold memWrite8
  simp only [apply_ite (Except.map _)]
  rfl

@[simp] theorem State.memWrite16_withRun (s : State) (r : RunState) (a : Nat) (v : Word) :
    (s.withRun r).memWrite16 a v = (s.memWrite16 a v).map (·.withRun r) := by
  unfold memWrite16
  simp only [apply_ite (Except.map _)]
  rfl

@[simp] theorem State.writeLoc8_withRun (s : State) (r : RunState) (l : Loc8) (v : Byte) :
    (s.withRun r).writeLoc8 l v = (s.writeLoc8 l v).map (·.withRun r) := by
  cases l with
  | reg q => rfl
  | direct a => exact memWrite8_withRun ..
  | base b => exact memWrite8_withRun ..

@[simp] theorem State.writeLoc16_withRun (s : State) (r : RunState) (l : Loc16) (v : Word) :
    (s.withRun r).writeLoc16 l v = (s.writeLoc16 l v).map (·.withRun r) := by
  cases l with
  | reg q => rfl
  | direct a => exact memWrite16_withRun ..
  | base b => exact memWrite16_withRun ..

@[simp] theorem divBy8_withRun (x : Byte) (s : State) (r : RunState) :
    divBy8 x (s.withRun r) = (divBy8 x s).map (·.withRun r) := by
  unfold divBy8
  simp only [apply_ite (Except.map _)]
  rfl

@[simp] theorem divBy16_withRun (x : Word) (s : State) (r : RunState) :
    divBy16 x (s.withRun r) = (divBy16 x s).map (·.withRun r) := by
  unfold divBy16
  simp only [apply_ite (Except.map _)]
  rfl

/-- A fault writes RUN, so what RUN was before does not show. -/
@[simp] theorem State.attempt_withRun {α : Type} (s : State) (r : RunState) (x : Except FaultRecord α)
    (k : α → StepOutcome) : (s.withRun r).attempt x k = s.attempt x k := rfl

@[simp] theorem State.attempt_map {α β : Type} (s : State) (x : Except FaultRecord α) (g : α → β)
    (k : β → StepOutcome) : s.attempt (x.map g) k = s.attempt x fun a => k (g a) := by cases x <;> rfl

@[simp] theorem twoOp8_withRun (alu : Byte → Byte → Flags → AluOut 8) (dst : Loc8) (src : Operand8) (len : Nat)
    (s : State) (r : RunState) : twoOp8 alu dst src len (s.withRun r) = twoOp8 alu dst src len s := by
  simp [twoOp8]

@[simp] theorem twoOp16_withRun (alu : Word → Word → Flags → AluOut 16) (dst : Loc16) (src : Operand16) (len : Nat)
    (s : State) (r : RunState) : twoOp16 alu dst src len (s.withRun r) = twoOp16 alu dst src len s := by
  simp [twoOp16]

@[simp] theorem move8_withRun (dst : Loc8) (src : Operand8) (len : Nat) (s : State) (r : RunState) :
    move8 dst src len (s.withRun r) = move8 dst src len s := by
  simp [move8]

@[simp] theorem move16_withRun (dst : Loc16) (src : Operand16) (len : Nat) (s : State) (r : RunState) :
    move16 dst src len (s.withRun r) = move16 dst src len s := by
  simp [move16]

@[simp] theorem compare8_withRun (dst : Loc8) (src : Operand8) (len : Nat) (s : State) (r : RunState) :
    compare8 dst src len (s.withRun r) = compare8 dst src len s := rfl

@[simp] theorem compare16_withRun (dst : Loc16) (src : Operand16) (len : Nat) (s : State) (r : RunState) :
    compare16 dst src len (s.withRun r) = compare16 dst src len s := rfl

theorem fetch_withRun (s : State) (r : RunState) : fetch (s.withRun r) = fetch s := rfl

/-- No instruction reads RUN: its outcome does not depend on the value RUN had. -/
theorem exec_withRun (i : Instr) (s : State) (r : RunState) : exec i (s.withRun r) = exec i s := by
  refine View.forall_instr (P := fun i => exec i (s.withRun r) = exec i s) (fun v => ?_) i
  cases v with
  | two8 op f => cases op <;> simp [View.instr]
  | two16 op f => cases op <;> simp [View.instr]
  | load8 d a => exact move8_withRun ..
  | load16 d a => exact move16_withRun ..
  | store8 a q => exact move8_withRun (.direct a) (.loc (.reg q)) 3 s r
  | store16 a q => exact move16_withRun (.direct a) (.loc (.reg q)) 3 s r
  | unary8 op q =>
    cases op
    case div => simp [View.instr]
    all_goals rfl
  | unary16 op q =>
    cases op
    case div => simp [View.instr]
    all_goals rfl
  | shift8 op q c => cases op <;> cases c <;> rfl
  | shift16 op q c => cases op <;> cases c <;> rfl
  | jump op rel => cases op <;> rfl
  | hlt => rfl

/-- A step depends on RUN only through whether RUN allows it (R22, R91). -/
theorem step_withRun (s : State) {r : RunState} (h : r.canStep = true) :
    step (s.withRun r) = s.attempt (fetch s) fun i => exec i s := by
  rw [step_of_canStep (s := s.withRun r) h]
  simp [fetch_withRun, exec_withRun]

/-! ### The moves of RUN (R22) -/

theorem step_of_fetch_error {s : State} {f : FaultRecord} (hc : s.run.canStep = true) (hf : fetch s = .error f) :
    step s = .next (s.raise f) := by
  rw [step_of_canStep hc, hf, State.attempt_error]

theorem step_of_fetch_ok {s : State} {i : Instr} (hc : s.run.canStep = true) (hf : fetch s = .ok i) :
    step s = exec i s := by
  rw [step_of_canStep hc, hf, State.attempt_ok]

theorem step_of_stopped {s : State} (h : s.run.canStep = false) : ∃ why, step s = .refused why := by
  cases hr : s.run with
  | ready => simp [hr, RunState.canStep] at h
  | running => simp [hr, RunState.canStep] at h
  | halted => exact ⟨.coreHalted, by simp only [step, hr]⟩
  | faulted => exact ⟨.coreFaulted, by simp only [step, hr]⟩

theorem State.hostStep_refused {s : State} {why : Refusal} (h : step s = .refused why) :
    s.hostStep = .refused why s := by
  simp only [hostStep, h]

/-- An instruction other than HLT leaves the core Running with FAULT as it was, or Faulted with a fault in FAULT. -/
theorem exec_run_fault {i : Instr} (hi : i ≠ .hlt) (s : State) :
    ∃ t, exec i s = .next t ∧
      ((t.run = .running ∧ t.fault = s.fault) ∨ (t.run = .faulted ∧ t.fault.isSome = true)) := by
  obtain ⟨t, ht, hrun⟩ := exec_runs hi s
  refine ⟨t, ht, ?_⟩
  rcases exec_next_cases ht with ⟨f, rfl⟩ | hc
  · exact .inr ⟨rfl, rfl⟩
  · exact .inl ⟨hrun.resolve_right hc.run, hc.fault⟩

/-- Settles O13: each move is `exec_run_fault` or what a step, a fault or a host operation writes to RUN; Ready and
Running agree because no instruction reads RUN. -/
theorem runStateMovesAsTheTableSays : Obligations.RunStateMovesAsTheTableSays := by
  refine ⟨State.powerOn_run, State.hostReset_run, State.loadEntry_run, fun s f hc hf => ?_, fun s hc hf => ?_,
    fun s i hc hf hi => ?_, fun s hc => ?_, fun s => ?_⟩
  · exact ⟨_, step_of_fetch_error hc hf, State.raise_run s f, State.raise_fault s f⟩
  · exact ⟨_, (step_of_fetch_ok hc hf).trans (exec_hlt s), State.halt_run s 1⟩
  · rw [step_of_fetch_ok hc hf]
    exact exec_run_fault hi s
  · obtain ⟨why, h⟩ := step_of_stopped hc
    exact ⟨why, h, State.hostStep_refused h⟩
  · exact (step_withRun s (r := .ready) rfl).trans (step_withRun s (r := .running) rfl).symm

end Sys2Proof.Machine

namespace Sys2Proof

/-! ### Byte registers (R12) -/

theorem joinBytes_and (a b c d : Byte) : joinBytes a b &&& joinBytes c d = joinBytes (a &&& c) (b &&& d) :=
  BitVec.and_append

theorem joinBytes_or (a b c d : Byte) : joinBytes a b ||| joinBytes c d = joinBytes (a ||| c) (b ||| d) :=
  BitVec.or_append

theorem joinBytes_zero_right (v : Byte) : joinBytes v 0 = BitVec.ofNat 16 (v.toNat * 256) := by
  apply BitVec.eq_of_toNat_eq
  simp only [joinBytes_toNat, BitVec.toNat_ofNat, BitVec.ofNat_eq_ofNat]
  omega

theorem joinBytes_zero_left (v : Byte) : joinBytes 0 v = BitVec.ofNat 16 v.toNat := by
  apply BitVec.eq_of_toNat_eq
  simp only [joinBytes_toNat, BitVec.toNat_ofNat, BitVec.ofNat_eq_ofNat]
  omega

/-- The mask 0x00FF keeps the low byte. -/
theorem and_lowMask (w : Word) : w &&& 0x00FF = joinBytes 0 (loByte w) :=
  calc w &&& 0x00FF = joinBytes (hiByte w) (loByte w) &&& joinBytes 0 0xFF := by rw [joinBytes_hi_lo]; rfl
    _ = joinBytes (hiByte w &&& 0) (loByte w &&& BitVec.allOnes 8) := joinBytes_and ..
    _ = joinBytes 0 (loByte w) := by rw [BitVec.and_allOnes]; simp

/-- The mask 0xFF00 keeps the high byte. -/
theorem and_highMask (w : Word) : w &&& 0xFF00 = joinBytes (hiByte w) 0 :=
  calc w &&& 0xFF00 = joinBytes (hiByte w) (loByte w) &&& joinBytes 0xFF 0 := by rw [joinBytes_hi_lo]; rfl
    _ = joinBytes (hiByte w &&& BitVec.allOnes 8) (loByte w &&& 0) := joinBytes_and ..
    _ = joinBytes (hiByte w) 0 := by rw [BitVec.and_allOnes]; simp

/-- Replacing the high byte of a word, as a mask and an or. -/
theorem joinBytes_loByte_eq_or (v : Byte) (w : Word) :
    joinBytes v (loByte w) = (w &&& 0x00FF) ||| BitVec.ofNat 16 (v.toNat * 256) := by
  rw [and_lowMask, ← joinBytes_zero_right, joinBytes_or]
  simp

/-- Replacing the low byte of a word, as a mask and an or. -/
theorem joinBytes_hiByte_eq_or (v : Byte) (w : Word) :
    joinBytes (hiByte w) v = (w &&& 0xFF00) ||| BitVec.ofNat 16 v.toNat := by
  rw [and_highMask, ← joinBytes_zero_left, joinBytes_or]
  simp

/-- The word a byte register is a half of has its number modulo 4. -/
theorem Reg8.ofField_num_mod (r : Reg8) : Reg16.ofField (BitVec.ofNat 3 (r.num % 4)) = r.parent := by
  cases r <;> rfl

theorem Reg8.num_div_eq_zero_iff (r : Reg8) : r.num / 4 = 0 ↔ r.isHigh = false := by
  cases r <;> decide

end Sys2Proof

namespace Sys2Proof.Machine

/-- A byte register as the quotient or the remainder of its word by 256. -/
theorem State.reg8_toNat (s : State) (r : Reg8) :
    (s.reg8 r).toNat = if r.isHigh = false then (s.reg16 r.parent).toNat % 256 else (s.reg16 r.parent).toNat / 256 := by
  rw [reg8_eq]
  cases r.isHigh
  · exact loByte_toNat _
  · exact hiByte_toNat _

/-- Writing a byte register masks its half out of the word and puts the value there. -/
theorem State.reg16_setReg8_parent_eq_or (s : State) (r : Reg8) (v : Byte) :
    (s.setReg8 r v).reg16 r.parent =
      if r.isHigh then ((s.reg16 r.parent) &&& 0x00FF) ||| BitVec.ofNat 16 (v.toNat * 256)
      else ((s.reg16 r.parent) &&& 0xFF00) ||| BitVec.ofNat 16 v.toNat := by
  rw [reg16_setReg8_parent, joinBytes_loByte_eq_or, joinBytes_hiByte_eq_or]

/-- Writing a word changes the half a byte register is. -/
theorem State.reg8_setReg16_parent (s : State) (r : Reg8) (v : Word) :
    (s.setReg16 r.parent v).reg8 r =
      if r.isHigh then BitVec.ofNat 8 (v.toNat / 256) else BitVec.ofNat 8 v.toNat := by
  rw [reg8_setReg16, if_pos rfl, hiByte_eq_ofNat, loByte_eq_ofNat]

/-- Settles O28: the register laws of reads and writes, with a byte register's number read as its word and its half. -/
theorem byteRegistersAliasHalvesOfWords : Obligations.ByteRegistersAliasHalvesOfWords := by
  refine ⟨fun s r => ?_, State.reg8_setReg8, State.reg16_setReg8_ne, State.reg16_setReg8_parent_eq_or,
    State.reg8_setReg16_parent⟩
  rw [Reg8.ofField_num_mod, State.reg8_toNat]
  simp only [Reg8.num_div_eq_zero_iff]

end Sys2Proof.Machine

/-! ## Memory (20_memory.md): what a read returns and the fault it raises -/

namespace Sys2Proof

/-- Two bytes as a word, little-endian, as a number. -/
theorem joinBytes_eq_ofNat (h l : Byte) : joinBytes h l = BitVec.ofNat 16 (h.toNat * 256 + l.toNat) := by
  rw [← joinBytes_toNat, BitVec.ofNat_toNat, BitVec.setWidth_eq]

end Sys2Proof

namespace Sys2Proof.Machine

/-! ### The first missing cell of an access, by where the access stands to MEM_SIZE (R201) -/

theorem State.badCell_of_le {s : State} {a : Nat} (n : Nat) (h : s.config.memSize ≤ a) : s.badCell n a = some a :=
  if_pos h

theorem State.badCell_two_of_le_succ {s : State} {a : Nat} (h : a < s.config.memSize)
    (h1 : s.config.memSize ≤ a + 1) : s.badCell 2 a = some (a + 1) := by
  rw [badCell, if_neg (Nat.not_le.mpr h), if_pos ⟨rfl, h1⟩]

theorem State.badCell_two_of_succ_lt {s : State} {a : Nat} (h : a + 1 < s.config.memSize) : s.badCell 2 a = none := by
  rw [badCell, if_neg (Nat.not_le.mpr (Nat.lt_of_succ_lt h)), if_neg fun g => Nat.not_le.mpr h g.2]

/-- Settles O29: each clause is the read lemma for the first missing cell the clause's address has, or for none. -/
theorem memReadChecksThenReadsLittleEndian : Obligations.MemReadChecksThenReadsLittleEndian := by
  refine fun s a => ⟨fun h => ⟨?_, ?_⟩, fun h => ?_, fun h h1 => ?_, fun h => ?_⟩
  · exact State.memRead8_error (State.badCell_of_le 1 h)
  · exact State.memRead16_error (State.badCell_of_le 2 h)
  · exact State.memRead8_lt h
  · exact State.memRead16_error (State.badCell_two_of_le_succ h h1)
  · rw [← joinBytes_eq_ofNat]
    exact State.memRead16_ok (State.badCell_two_of_succ_lt h)

end Sys2Proof.Machine

/-! ## Encodings (30_encoding.md): which bytes are reserved (R75) and how long an instruction is (R62) -/

namespace Sys2Proof

open Machine

/-! ### The fields of a byte, as numbers (R63) -/

theorem modeField_toNat (b : Byte) : (modeField b).toNat = b.toNat / 64 := by
  simp only [modeField, BitVec.extractLsb'_toNat, Nat.shiftRight_eq_div_pow]
  omega

theorem middleField_toNat (b : Byte) : (middleField b).toNat = b.toNat / 8 % 8 := by
  simp only [middleField, BitVec.extractLsb'_toNat, Nat.shiftRight_eq_div_pow]

theorem lowField_toNat (b : Byte) : (lowField b).toNat = b.toNat % 8 := by
  simp only [lowField, BitVec.extractLsb'_toNat, Nat.shiftRight_zero]

theorem lowField_eq_zero_iff (b : Byte) : lowField b = 0 ↔ b.toNat % 8 = 0 := by
  rw [← lowField_toNat, ← BitVec.toNat_inj]
  rfl

theorem getLsbD_zero_iff_mod_two (b : Byte) : b.getLsbD 0 = true ↔ b.toNat % 2 = 1 := by
  simp [BitVec.getLsbD]

/-- The base fields of R64: 3, 5, 6 and 7 name a base register. -/
theorem Reg16.isBase_ofField_iff :
    ∀ f : BitVec 3, (Reg16.ofField f).isBase = true ↔ ¬(f.toNat = 0 ∨ f.toNat = 1 ∨ f.toNat = 2 ∨ f.toNat = 4) := by
  decide

/-! ### Which operation numbers are operations -/

theorem TwoOp.exists_ofNum {n : Nat} (h : n ≤ 8) : ∃ op, TwoOp.ofNum n = some op := by
  interval_cases n <;> exact ⟨_, rfl⟩

theorem UnaryOp.ofNum_eq_none_iff (n : Nat) : UnaryOp.ofNum n = none ↔ 6 ≤ n := by
  fun_cases UnaryOp.ofNum n
  case case7 => grind
  all_goals simp

theorem ShiftOp.ofNum_eq_none_iff (n : Nat) : ShiftOp.ofNum n = none ↔ 2 ≤ n := by
  fun_cases ShiftOp.ofNum n
  case case3 => grind
  all_goals simp

theorem JumpOp.ofNum_eq_none_iff (n : Nat) :
    JumpOp.ofNum n = none ↔ ¬((0xC0 ≤ n ∧ n ≤ 0xC9) ∨ (0xCC ≤ n ∧ n ≤ 0xD1)) := by
  fun_cases JumpOp.ofNum n
  case case17 => grind
  all_goals simp

/-! ### The length of each shape -/

theorem Instr.length_two8 (op : TwoOp) (f : Form8) : (Instr.two8 op f).length = formLength8 f := by
  cases op <;> cases f <;> rfl

theorem Instr.length_two16 (op : TwoOp) (f : Form16) : (Instr.two16 op f).length = formLength16 f := by
  cases op <;> cases f <;> rfl

theorem Instr.length_unary8 (op : UnaryOp) (r : Reg8) : (Instr.unary8 op r).length = 2 := by cases op <;> rfl
theorem Instr.length_unary16 (op : UnaryOp) (r : Reg16) : (Instr.unary16 op r).length = 2 := by cases op <;> rfl

theorem Instr.length_shift8 (op : ShiftOp) (r : Reg8) (c : ShiftCount) :
    (Instr.shift8 op r c).length = shiftLength c := by cases op <;> cases c <;> rfl

theorem Instr.length_shift16 (op : ShiftOp) (r : Reg16) (c : ShiftCount) :
    (Instr.shift16 op r c).length = shiftLength c := by cases op <;> cases c <;> rfl

theorem Instr.length_jump (op : JumpOp) (rel : Byte) : (Instr.jump op rel).length = 2 := by cases op <;> rfl

theorem length_encode (i : Instr) : (encode i).length = i.length := by cases i <;> rfl

/-! ### What the decoder can answer -/

/-- The decoder's answer `v` is as R75 and R62 say: a refusal exactly where `reserved` holds, and otherwise, once it
is an instruction, one of length `len`. -/
def Verdict.Fits (reserved : Prop) (len : Option Nat) : Verdict → Prop
  | .done i => ¬reserved ∧ len = some i.length
  | .reserved _ => reserved
  | .more => ¬reserved

theorem Verdict.Fits.reserved_iff {v : Verdict} {p : Prop} {len : Option Nat} (h : v.Fits p len) :
    (∃ why, v = .reserved why) ↔ p := by
  cases v with
  | done i => exact iff_of_false nofun h.1
  | reserved why => exact iff_of_true ⟨why, rfl⟩ h
  | more => exact iff_of_false nofun h

theorem Verdict.Fits.length_eq {i : Instr} {p : Prop} {len : Option Nat} (h : (Verdict.done i).Fits p len) :
    len = some i.length := h.2

theorem Verdict.Fits.congr {v : Verdict} {p q : Prop} {len len' : Option Nat} (h : v.Fits p len) (hpq : p ↔ q)
    (hlen : len = len') : v.Fits q len' :=
  hlen ▸ propext hpq ▸ h

theorem Verdict.fits_reserved {p : Prop} {len : Option Nat} (why : Reserved) (hp : p) :
    (Verdict.reserved why).Fits p len := hp

theorem Verdict.fits_more {p : Prop} {len : Option Nat} (hp : ¬p) : Verdict.more.Fits p len := hp

theorem Verdict.fits_done {p : Prop} {n : Nat} {i : Instr} (hp : ¬p) (hi : i.length = n) :
    (Verdict.done i).Fits p (some n) := ⟨hp, congrArg some hi.symm⟩

/-- The decoder picks the byte or the word form by the width bit; both have the same length. -/
theorem length_ite {n : Nat} (w : Bool) {i j : Instr} (hi : i.length = n) (hj : j.length = n) :
    (if w then i else j).length = n := by
  cases w
  · exact hj
  · exact hi

/-- R67 and R75 (b): by the mode, a base field that names no base register, and an immediate that is word-wide or has
a non-zero base field, are refused; only the immediate mode has a third byte. -/
theorem decodeG2_fits (op : TwoOp) (w : Bool) (b2 : Byte) (rest : List Byte) :
    (decodeG2 op w (b2 :: rest)).Fits
      (((b2.toNat / 64 = 0 ∨ b2.toNat / 64 = 1) ∧
          (b2.toNat % 8 = 0 ∨ b2.toNat % 8 = 1 ∨ b2.toNat % 8 = 2 ∨ b2.toNat % 8 = 4)) ∨
        (b2.toNat / 64 = 2 ∧ w = true) ∨ (b2.toNat / 64 = 2 ∧ b2.toNat % 8 ≠ 0))
      (some (if b2.toNat / 64 = 2 then 3 else 2)) := by
  have hbase := Reg16.isBase_ofField_iff (lowField b2)
  have himm := lowField_eq_zero_iff b2
  have hmode : (modeField b2).toFin.val = b2.toNat / 64 := modeField_toNat b2
  rw [lowField_toNat] at hbase
  generalize hlen : (if b2.toNat / 64 = 2 then 3 else 2) = n
  simp only [decodeG2, hbase, ne_eq, himm]
  split <;> rename_i hm <;> rw [hm] at hmode
  case h_1 | h_2 =>
    have hmode : b2.toNat / 64 ≤ 1 := by rw [← hmode]; decide
    obtain rfl : 2 = n := hlen ▸ (if_neg (by omega)).symm
    split
    next h => exact Verdict.fits_done (by omega) (length_ite w (Instr.length_two16 ..) (Instr.length_two8 ..))
    next h => exact Verdict.fits_reserved _ (by omega)
  case h_3 =>
    have hmode : b2.toNat / 64 = 2 := hmode.symm
    obtain rfl : 3 = n := hlen ▸ (if_pos hmode).symm
    split
    next h => exact Verdict.fits_reserved _ (.inr (by tauto))
    next h =>
      cases rest with
      | nil => exact Verdict.fits_more (by grind)
      | cons b3 rest => exact Verdict.fits_done (by grind) (Instr.length_two8 ..)
  case h_4 =>
    have hmode : b2.toNat / 64 = 3 := hmode.symm
    obtain rfl : 2 = n := hlen ▸ (if_neg (by omega)).symm
    exact Verdict.fits_done (by omega) (length_ite w (Instr.length_two16 ..) (Instr.length_two8 ..))

/-- R70 and R75 (c). -/
theorem decodeUnary_fits (w : Bool) (b2 : Byte) (rest : List Byte) :
    (decodeUnary w (b2 :: rest)).Fits
      (b2.toNat / 64 ≠ 3 ∨ b2.toNat / 8 % 8 = 6 ∨ b2.toNat / 8 % 8 = 7) (some 2) := by
  have hmode : modeField b2 = 3 ↔ b2.toNat / 64 = 3 := by
    rw [← modeField_toNat, ← BitVec.toNat_inj]
    rfl
  have hop := UnaryOp.ofNum_eq_none_iff (b2.toNat / 8 % 8)
  simp only [decodeUnary, middleField_toNat, ne_eq, hmode]
  by_cases hm : b2.toNat / 64 = 3
  · rw [if_neg (not_not.mpr hm)]
    cases ho : UnaryOp.ofNum (b2.toNat / 8 % 8) with
    | none =>
      have hmid := hop.mp ho
      exact Verdict.fits_reserved _ (by omega)
    | some op =>
      have hmid : ¬6 ≤ b2.toNat / 8 % 8 := by rw [← hop, ho]; nofun
      exact Verdict.fits_done (by omega) (length_ite w (Instr.length_unary16 ..) (Instr.length_unary8 ..))
  · rw [if_pos hm]
    exact Verdict.fits_reserved _ (.inl hm)

/-- R71 and R75 (d): refused are the operations 2 to 7 in any mode and the count field 3; only the imm8 count has a
third byte. -/
theorem decodeShift_fits (w : Bool) (b2 : Byte) (rest : List Byte) :
    (decodeShift w (b2 :: rest)).Fits (b2.toNat / 64 = 3 ∨ 2 ≤ b2.toNat / 8 % 8)
      (some (if b2.toNat / 64 = 2 then 3 else 2)) := by
  have hop := ShiftOp.ofNum_eq_none_iff (b2.toNat / 8 % 8)
  have hmode : (modeField b2).toFin.val = b2.toNat / 64 := modeField_toNat b2
  generalize hlen : (if b2.toNat / 64 = 2 then 3 else 2) = n
  cases ho : ShiftOp.ofNum (b2.toNat / 8 % 8) with
  | none =>
    simp only [decodeShift, middleField_toNat, ho]
    split <;> exact Verdict.fits_reserved _ (.inr (hop.mp ho))
  | some op =>
    have hmid : ¬2 ≤ b2.toNat / 8 % 8 := by rw [← hop, ho]; nofun
    simp only [decodeShift, middleField_toNat, ho]
    split <;> rename_i hm <;> rw [hm] at hmode
    case h_1 => exact Verdict.fits_reserved _ (.inl hmode.symm)
    case h_2 | h_3 =>
      have hmode : b2.toNat / 64 ≤ 1 := by rw [← hmode]; decide
      obtain rfl : 2 = n := hlen ▸ (if_neg (by omega)).symm
      exact Verdict.fits_done (by omega) (length_ite w (Instr.length_shift16 ..) (Instr.length_shift8 ..))
    case h_4 =>
      have hmode : b2.toNat / 64 = 2 := hmode.symm
      obtain rfl : 3 = n := hlen ▸ (if_pos hmode).symm
      cases rest with
      | nil => exact Verdict.fits_more (by omega)
      | cons b3 rest =>
        exact Verdict.fits_done (by omega) (length_ite w (Instr.length_shift16 ..) (Instr.length_shift8 ..))

theorem decodeImm16_fits (op : TwoOp) (rrr : BitVec 3) (b2 : Byte) (rest : List Byte) :
    (decodeImm16 op rrr (b2 :: rest)).Fits False (some 3) := by
  cases rest with
  | nil => exact Verdict.fits_more not_false
  | cons b3 rest => exact Verdict.fits_done not_false (Instr.length_two16 ..)

theorem decodeDirect_fits (s w : Bool) (rrr : BitVec 3) (b2 : Byte) (rest : List Byte) :
    (decodeDirect s w rrr (b2 :: rest)).Fits False (some 3) := by
  cases rest with
  | nil => exact Verdict.fits_more not_false
  | cons b3 rest => exact Verdict.fits_done not_false (by cases s <;> cases w <;> rfl)

theorem decodeJump_fits (op : JumpOp) (b2 : Byte) (rest : List Byte) :
    (decodeJump op (b2 :: rest)).Fits False (some 2) :=
  Verdict.fits_done not_false (Instr.length_jump ..)

/-! ### The first byte -/

/-- What the decoder does with a first byte, by the byte's value (R66, R68 to R73, R75 (a)). -/
inductive FirstByte (b1 : Byte) : Prop
  | g2 (op : TwoOp) (hn : 0x10 ≤ b1.toNat ∧ b1.toNat ≤ 0x21)
      (hd : ∀ rest, decode (b1 :: rest) = decodeG2 op (b1.getLsbD 0) rest)
  | unary (hn : b1.toNat = 0x30 ∨ b1.toNat = 0x31)
      (hd : ∀ rest, decode (b1 :: rest) = decodeUnary (b1.getLsbD 0) rest)
  | shift (hn : b1.toNat = 0x32 ∨ b1.toNat = 0x33)
      (hd : ∀ rest, decode (b1 :: rest) = decodeShift (b1.getLsbD 0) rest)
  | imm16 (op : TwoOp) (hn : 0x40 ≤ b1.toNat ∧ b1.toNat ≤ 0x87)
      (hd : ∀ rest, decode (b1 :: rest) = decodeImm16 op (lowField b1) rest)
  | direct (hn : 0xA0 ≤ b1.toNat ∧ b1.toNat ≤ 0xBF)
      (hd : ∀ rest, decode (b1 :: rest) = decodeDirect (b1.getLsbD 4) (b1.getLsbD 3) (lowField b1) rest)
  | jump (op : JumpOp) (hn : (0xC0 ≤ b1.toNat ∧ b1.toNat ≤ 0xC9) ∨ (0xCC ≤ b1.toNat ∧ b1.toNat ≤ 0xD1))
      (hd : ∀ rest, decode (b1 :: rest) = decodeJump op rest)
  | hlt (hn : b1.toNat = 0xF4) (hd : ∀ rest, decode (b1 :: rest) = .done .hlt)
  | reserved (hn : reservedFirst b1.toNat = true) (hd : ∀ rest, decode (b1 :: rest) = .reserved .firstByte)

theorem reservedFirst_iff (n : Nat) : reservedFirst n = true ↔
    (n ≤ 0x0F ∨ (0x22 ≤ n ∧ n ≤ 0x2F) ∨ (0x34 ≤ n ∧ n ≤ 0x3F) ∨ (0x88 ≤ n ∧ n ≤ 0x9F) ∨ n = 0xCA ∨ n = 0xCB ∨
      (0xD2 ≤ n ∧ n ≤ 0xF3) ∨ (0xF5 ≤ n ∧ n ≤ 0xFF)) := decide_eq_true_iff

/-- Every first byte belongs to one of the groups. -/
theorem firstByte (b1 : Byte) : FirstByte b1 := by
  by_cases hg2 : 0x10 ≤ b1.toNat ∧ b1.toNat ≤ 0x21
  · obtain ⟨op, hop⟩ := TwoOp.exists_ofNum (n := (b1.toNat - 0x10) / 2) (by omega)
    exact .g2 op hg2 fun rest => by simp only [decode, if_pos hg2, hop]
  by_cases hu : b1.toNat = 0x30 ∨ b1.toNat = 0x31
  · exact .unary hu fun rest => by simp only [decode, if_neg hg2, if_pos hu]
  by_cases hs : b1.toNat = 0x32 ∨ b1.toNat = 0x33
  · exact .shift hs fun rest => by simp only [decode, if_neg hg2, if_neg hu, if_pos hs]
  by_cases hi : 0x40 ≤ b1.toNat ∧ b1.toNat ≤ 0x87
  · obtain ⟨op, hop⟩ := TwoOp.exists_ofNum (n := (b1.toNat - 0x40) / 8) (by omega)
    exact .imm16 op hi fun rest => by simp only [decode, if_neg hg2, if_neg hu, if_neg hs, if_pos hi, hop]
  by_cases hd : 0xA0 ≤ b1.toNat ∧ b1.toNat ≤ 0xBF
  · exact .direct hd fun rest => by simp only [decode, if_neg hg2, if_neg hu, if_neg hs, if_neg hi, if_pos hd]
  have hj := JumpOp.ofNum_eq_none_iff b1.toNat
  cases hop : JumpOp.ofNum b1.toNat with
  | some op =>
    rw [hop] at hj
    refine .jump op (by grind) fun rest => ?_
    simp only [decode, if_neg hg2, if_neg hu, if_neg hs, if_neg hi, if_neg hd, hop]
  | none =>
    have hn := hj.mp hop
    by_cases hh : b1.toNat = 0xF4
    · refine .hlt hh fun rest => ?_
      simp only [decode, if_neg hg2, if_neg hu, if_neg hs, if_neg hi, if_neg hd, hop, if_pos hh]
    · refine .reserved ?_ fun rest => ?_
      · have := b1.isLt
        rw [reservedFirst_iff]
        omega
      · simp only [decode, if_neg hg2, if_neg hu, if_neg hs, if_neg hi, if_neg hd, hop, if_neg hh]

theorem reservedPair_iff (b1 b2 : Byte) : reservedPair b1 b2 = true ↔
    reservedFirst b1.toNat = true ∨
    ((0x10 ≤ b1.toNat ∧ b1.toNat ≤ 0x21) ∧
      (((b2.toNat / 64 = 0 ∨ b2.toNat / 64 = 1) ∧
          (b2.toNat % 8 = 0 ∨ b2.toNat % 8 = 1 ∨ b2.toNat % 8 = 2 ∨ b2.toNat % 8 = 4)) ∨
        (b2.toNat / 64 = 2 ∧ b1.toNat % 2 = 1) ∨ (b2.toNat / 64 = 2 ∧ b2.toNat % 8 ≠ 0))) ∨
    ((b1.toNat = 0x30 ∨ b1.toNat = 0x31) ∧
      (b2.toNat / 64 ≠ 3 ∨ b2.toNat / 8 % 8 = 6 ∨ b2.toNat / 8 % 8 = 7)) ∨
    ((b1.toNat = 0x32 ∨ b1.toNat = 0x33) ∧ (b2.toNat / 64 = 3 ∨ 2 ≤ b2.toNat / 8 % 8)) := by
  simp only [reservedPair, Bool.or_eq_true, decide_eq_true_iff, or_assoc]

/-- R75 and R62 at once, for two bytes and whatever follows: the decoder refuses exactly the listed pairs, and an
instruction it answers has the table's length. -/
theorem decode_fits (b1 b2 : Byte) (rest : List Byte) :
    (decode (b1 :: b2 :: rest)).Fits (reservedPair b1 b2 = true) (lengthOfBytes b1 b2) := by
  rw [reservedPair_iff, reservedFirst_iff]
  cases firstByte b1 with
  | g2 op hn hd =>
    rw [hd]
    exact (decodeG2_fits op _ b2 rest).congr (by rw [getLsbD_zero_iff_mod_two]; grind)
      (by simp (disch := omega) only [lengthOfBytes, if_pos])
  | unary hn hd =>
    rw [hd]
    exact (decodeUnary_fits _ b2 rest).congr (by grind)
      (by simp (disch := omega) only [lengthOfBytes, if_pos, if_neg])
  | shift hn hd =>
    rw [hd]
    exact (decodeShift_fits _ b2 rest).congr (by grind)
      (by simp (disch := omega) only [lengthOfBytes, if_pos, if_neg])
  | imm16 op hn hd =>
    rw [hd]
    exact (decodeImm16_fits op _ b2 rest).congr (iff_of_false not_false (by omega))
      (by simp (disch := omega) only [lengthOfBytes, if_pos, if_neg])
  | direct hn hd =>
    rw [hd]
    exact (decodeDirect_fits _ _ _ b2 rest).congr (iff_of_false not_false (by omega))
      (by simp (disch := omega) only [lengthOfBytes, if_pos, if_neg])
  | jump op hn hd =>
    rw [hd]
    exact (decodeJump_fits op b2 rest).congr (iff_of_false not_false (by omega))
      (by simp (disch := omega) only [lengthOfBytes, if_pos, if_neg])
  | hlt hn hd =>
    rw [hd]
    exact (Verdict.fits_done not_false (n := 1) rfl).congr (iff_of_false not_false (by omega))
      (by simp (disch := omega) only [lengthOfBytes, if_pos, if_neg])
  | reserved hn hd =>
    rw [hd]
    exact Verdict.fits_reserved _ (.inl ((reservedFirst_iff _).mp hn))

/-- R75 (a): one byte is refused on its own exactly when it is a listed first byte. -/
theorem decode_one_reserved_iff (b1 : Byte) :
    (∃ why, decode [b1] = .reserved why) ↔ reservedFirst b1.toNat = true := by
  rw [reservedFirst_iff]
  cases firstByte b1 with
  | reserved hn hd => exact iff_of_true ⟨_, hd []⟩ ((reservedFirst_iff _).mp hn)
  | g2 op hn hd | unary hn hd | shift hn hd | imm16 op hn hd | direct hn hd | jump op hn hd | hlt hn hd =>
    exact iff_of_false (fun ⟨_, h⟩ => nomatch (hd []).symm.trans h) (by omega)

/-- R62's table has no row exactly for the first bytes of R75 (a). -/
theorem lengthOfBytes_eq_none_iff (b1 b2 : Byte) : lengthOfBytes b1 b2 = none ↔ reservedFirst b1.toNat = true := by
  have := b1.isLt
  rw [reservedFirst_iff]
  simp only [lengthOfBytes]
  split_ifs <;> simp only [false_iff, true_iff] <;> omega

end Sys2Proof

namespace Sys2Proof.Machine

/-! ### Fetching a reserved encoding -/

/-- With `got` fetched and `more` standing next, the fetch refuses the bytes the decoder refuses: it asks for bytes
one at a time and the refusal does not depend on those not asked for. -/
theorem fetchFrom_reserved {s : State} {why : Reserved} (more : List Byte) :
    ∀ (n : Nat) (got : List Byte), more.length ≤ n → decode got = .more → decode (got ++ more) = .reserved why →
      s.holdsBytes s.ip.toNat (got ++ more) → fetchFrom s n got = .error s.invalidAddress := by
  induction more with
  | nil =>
    intro n got _ hm hr _
    rw [List.append_nil, hm] at hr
    cases hr
  | cons b more ih =>
    intro n got hn hm hr hb
    obtain ⟨n, rfl⟩ : ∃ m, n = m + 1 := ⟨n - 1, by simp at hn; omega⟩
    obtain ⟨hlt, hbyte⟩ := hb got.length (by simp)
    have hbyte : s.byteAt (s.ip.toNat + got.length) = b := by simpa using hbyte
    rw [List.append_cons] at hr hb
    simp only [fetchFrom, State.memRead8_lt hlt, hbyte]
    by_cases hg : decode (got ++ [b]) = .more
    · simp only [hg]
      exact ih n _ (by simpa using hn) hg hr hb
    · rw [decode_append more hg] at hr
      simp only [hr]

/-- The fetch of a reserved encoding raises InvalidAddressError(IP) (R202). -/
theorem fetch_reserved {s : State} {bs : List Byte} {why : Reserved} (hs : s.startAllowed = true)
    (hd : decode bs = .reserved why) (hl : bs.length ≤ 3) (hb : s.holdsBytes s.ip.toNat bs) :
    fetch s = .error s.invalidAddress :=
  (if_pos hs).trans (fetchFrom_reserved bs 3 [] hl rfl hd hb)

/-- Executing a reserved encoding raises InvalidAddressError(IP) and does nothing else (R75, R202, R204). -/
theorem step_reserved {s : State} {bs : List Byte} (hc : s.run.canStep = true) (hs : s.startAllowed = true)
    (hl : bs.length ≤ 3) (hb : s.holdsBytes s.ip.toNat bs) (hd : ∃ why, decode bs = .reserved why) :
    step s = .next { s with fault := some ⟨.invalidAddressError, s.ip.toNat⟩, run := .faulted } :=
  hd.elim fun _ hd => step_of_fetch_error hc (fetch_reserved hs hd hl hb)

/-- Settles O3: what the decoder refuses is read off `decode_one_reserved_iff` and `decode_fits`, and the step on
refused bytes off `step_reserved`. -/
theorem reservedEncodingsAreExactlyTheListed : Obligations.ReservedEncodingsAreExactlyTheListed := by
  have hpair (b1 b2 : Byte) (rest : List Byte) := (decode_fits b1 b2 rest).reserved_iff
  refine ⟨decode_one_reserved_iff, hpair, fun s b1 hc hs hb hr => ?_, fun s b1 b2 hc hs hb hr => ?_⟩
  · exact step_reserved hc hs (Nat.le_of_ble_eq_true rfl) hb ((decode_one_reserved_iff b1).mpr hr)
  · exact step_reserved hc hs (Nat.le_of_ble_eq_true rfl) hb ((hpair b1 b2 []).mpr hr)

/-- Settles O5: `decode_fits` gives the table's length, and both the table and the decoder leave out the first bytes
of R75 (a). -/
theorem lengthFollowsFromTheFirstTwoBytes : Obligations.LengthFollowsFromTheFirstTwoBytes := by
  refine ⟨fun b1 b2 rest i hd => ⟨?_, length_encode i⟩, fun b1 b2 => ?_⟩
  · exact (hd ▸ decode_fits b1 b2 rest).length_eq
  · rw [lengthOfBytes_eq_none_iff, decode_one_reserved_iff]

end Sys2Proof.Machine

/-! ## Execution (40_execution_and_operands.md): a stopped core -/

namespace Sys2Proof.Machine

theorem step_of_halted {s : State} (h : s.run = .halted) : step s = .refused .coreHalted := by
  simp only [step, h]

theorem step_of_faulted {s : State} (h : s.run = .faulted) : step s = .refused .coreFaulted := by
  simp only [step, h]

/-- A run whose first step is refused performs none, whatever its budget (R236). -/
theorem State.hostRun_refused {s : State} {why : Refusal} (h : step s = .refused why) (k : Nat) :
    s.hostRun k = .stopAt s := by
  cases k with
  | zero => rfl
  | succ k => simp only [hostRun, h]

@[simp] theorem State.placeBytes_run (s : State) (a : Nat) (bs : List Byte) : (s.placeBytes a bs).run = s.run := by
  rw [placeBytes_eq]

/-- A WriteMemory that succeeds has placed its bytes (R240). -/
theorem State.writeMemory_ok {s t : State} {a : Nat} {bs : List Byte} (h : s.writeMemory a bs = .ok t) :
    t = s.placeBytes a bs := by
  unfold writeMemory at h
  split at h
  · exact (Except.ok.inj h).symm
  · cases h

/-- Settles O8: Halted and Faulted each refuse the step, a refused step ends the host's Step and Run where they began,
and the host's two memory operations write memory only. -/
theorem stoppedCoreRefusesTheStep : Obligations.StoppedCoreRefusesTheStep := by
  refine ⟨fun s hr => ?_, fun s hr => ?_, fun s k hc => ?_, fun s t a bs hw => ?_, State.clearMemory_run⟩
  · have h := step_of_halted hr
    exact ⟨h, State.hostStep_refused h⟩
  · have h := step_of_faulted hr
    exact ⟨h, State.hostStep_refused h⟩
  · obtain ⟨why, h⟩ := step_of_stopped hc
    rw [State.hostRun_refused h k]
    exact ⟨rfl, rfl⟩
  · rw [State.writeMemory_ok hw, State.placeBytes_run]

end Sys2Proof.Machine

/-! ## MOV (41_mov.md), with what every two-operand rule needs: IP after, missing cells, first bytes -/

namespace Sys2Proof.Machine

/-! ### The end of an instruction, over numbers (R17) -/

theorem State.nextIp_eq_ipAfter (s : State) (n : Nat) : s.nextIp n = s.ipAfter n := by
  rw [nextIp, ipAfter, BitVec.ofNat_add, BitVec.ofNat_toNat, BitVec.setWidth_eq]

theorem State.complete_eq_ipAfter (s : State) (n : Nat) :
    s.complete n = { s with ip := s.ipAfter n, run := .running } := by
  rw [complete, nextIp_eq_ipAfter]

@[simp] theorem State.putLoc8_ipAfter (s : State) (l : Loc8) (v : Byte) (n : Nat) :
    (s.putLoc8 l v).ipAfter n = s.ipAfter n := by
  rw [ipAfter, putLoc8_ip, ipAfter]

@[simp] theorem State.putLoc16_ipAfter (s : State) (l : Loc16) (v : Word) (n : Nat) :
    (s.putLoc16 l v).ipAfter n = s.ipAfter n := by
  rw [ipAfter, putLoc16_ip, ipAfter]

/-! ### A missing cell (R201, R204) -/

theorem State.badCell_one_of_lt {s : State} {a : Nat} (h : a < s.config.memSize) : s.badCell 1 a = none := by
  rw [badCell, if_neg (Nat.not_le.mpr h), if_neg (by omega)]

theorem exec_two8_badCell {op : TwoOp} {f : Form8} {s : State} {x : Nat} (h : (View.two8 op f).badCell s = some x) :
    exec (.two8 op f) s = .next (s.raise (outOfRange x)) := by
  have hbad := View.badCell_two8_some h
  have alu (g : Byte → Byte → Flags → AluOut 8) :
      twoOp8 g (dst8 f) (src8 f) (formLength8 f) s = .next (s.raise (outOfRange x)) := by
    obtain ⟨hd, -⟩ | ⟨hd, hs⟩ := hbad
    · exact twoOp8_dst_error g _ hd
    · exact twoOp8_src_error g _ hd hs
  cases op
  case mov =>
    rw [exec_two8_mov]
    obtain ⟨hd, hs⟩ | ⟨-, hs⟩ := hbad
    · exact move8_dst_error _ hd hs
    · exact move8_src_error _ hs
  case cmp =>
    rw [exec_two8_cmp]
    obtain ⟨hd, -⟩ | ⟨hd, hs⟩ := hbad
    · exact compare8_dst_error _ hd
    · exact compare8_src_error _ hd hs
  all_goals simp only [exec_two8_add, exec_two8_adc, exec_two8_sub, exec_two8_sbb, exec_two8_and, exec_two8_or,
    exec_two8_xor, alu]

theorem exec_two16_badCell {op : TwoOp} {f : Form16} {s : State} {x : Nat}
    (h : (View.two16 op f).badCell s = some x) : exec (.two16 op f) s = .next (s.raise (outOfRange x)) := by
  have hbad := View.badCell_two16_some h
  have alu (g : Word → Word → Flags → AluOut 16) :
      twoOp16 g (dst16 f) (src16 f) (formLength16 f) s = .next (s.raise (outOfRange x)) := by
    obtain ⟨hd, -⟩ | ⟨hd, hs⟩ := hbad
    · exact twoOp16_dst_error g _ hd
    · exact twoOp16_src_error g _ hd hs
  cases op
  case mov =>
    rw [exec_two16_mov]
    obtain ⟨hd, hs⟩ | ⟨-, hs⟩ := hbad
    · exact move16_dst_error _ hd hs
    · exact move16_src_error _ hs
  case cmp =>
    rw [exec_two16_cmp]
    obtain ⟨hd, -⟩ | ⟨hd, hs⟩ := hbad
    · exact compare16_dst_error _ hd
    · exact compare16_src_error _ hd hs
  all_goals simp only [exec_two16_add, exec_two16_adc, exec_two16_sub, exec_two16_sbb, exec_two16_and, exec_two16_or,
    exec_two16_xor, alu]

/-- An instruction whose memory operand misses a cell raises AddressError for the first missing one, and does
nothing else. -/
theorem exec_badCell {v : View} {s : State} {x : Nat} (h : v.badCell s = some x) :
    exec v.instr s = .next (s.raise (outOfRange x)) := by
  cases v with
  | two8 op f => exact exec_two8_badCell h
  | two16 op f => exact exec_two16_badCell h
  | load8 d a => exact (exec_movR8Addr d a s).trans (move8_src_error 3 h)
  | load16 d a => exact (exec_movR16Addr d a s).trans (move16_src_error 3 h)
  | store8 a r => exact (exec_movAddrR8 a r s).trans (move8_dst_error 3 h rfl)
  | store16 a r => exact (exec_movAddrR16 a r s).trans (move16_dst_error 3 h rfl)
  | unary8 | unary16 | shift8 | shift16 | jump | hlt => cases h

end Sys2Proof.Machine

namespace Sys2Proof

open Machine

/-! ### The bytes of the two-operand forms and of the direct-address forms (R66 to R69) -/

theorem head_encode_two8 (op : TwoOp) (f : Form8) : (encode (.two8 op f)).head? = some (g2Byte op 0) := by
  cases op <;> cases f <;> rfl

/-- The word forms without an immediate, which are those of two bytes, stand in group G2. -/
theorem head_encode_two16 (op : TwoOp) {f : Form16} (hf : formLength16 f = 2) :
    (encode (.two16 op f)).head? = some (g2Byte op 1) := by
  cases f with
  | regImm d imm => cases hf
  | regReg | regMem | memReg => cases op <;> rfl

theorem encode_two16_regImm (op : TwoOp) (d : Reg16) (imm : Word) :
    encode (.two16 op (.regImm d imm)) = imm16Bytes op d.num imm := by
  cases op <;> rfl

theorem imm16Bytes_eq_ofNat (op : TwoOp) (r : Nat) (v : Word) : imm16Bytes op r v =
    [BitVec.ofNat 8 (0x40 + 8 * op.num + r), BitVec.ofNat 8 v.toNat, BitVec.ofNat 8 (v.toNat / 256)] := by
  rw [imm16Bytes, loByte_eq_ofNat, hiByte_eq_ofNat]

theorem directBytes_eq_ofNat (s w r : Nat) (a : Word) : directBytes s w r a =
    [BitVec.ofNat 8 (0xA0 + 16 * s + 8 * w + r), BitVec.ofNat 8 a.toNat, BitVec.ofNat 8 (a.toNat / 256)] := by
  rw [directBytes, loByte_eq_ofNat, hiByte_eq_ofNat]

end Sys2Proof

namespace Sys2Proof.Machine

/-! ### MOV where the cells exist (R110) -/

theorem move8_completes {dst : Loc8} {src : Operand8} (len : Nat) {s : State} (hd : s.locBad8 dst = none)
    (hs : s.opBad8 src = none) : move8 dst src len s =
      .next { s.putLoc8 dst (s.opValue8 src) with ip := s.ipAfter len, run := .running } := by
  rw [move8_ok len hd hs, State.complete_eq_ipAfter, State.putLoc8_ipAfter]

theorem move16_completes {dst : Loc16} {src : Operand16} (len : Nat) {s : State} (hd : s.locBad16 dst = none)
    (hs : s.opBad16 src = none) : move16 dst src len s =
      .next { s.putLoc16 dst (s.opValue16 src) with ip := s.ipAfter len, run := .running } := by
  rw [move16_ok len hd hs, State.complete_eq_ipAfter, State.putLoc16_ipAfter]

/-- MOV in the forms it shares with the other two-operand instructions: the value is the source's, the flags are
those before. -/
theorem mov_twoOpRule : TwoOpRule .mov 0x10 0x40 true (fun _ _ b _ => b) (fun _ _ _ f => f) := by
  refine ⟨fun s f h => ?_, fun s f h => ?_, fun s f x => exec_two8_badCell, fun s f x => exec_two16_badCell,
    head_encode_two8 .mov, fun d r b => ⟨?_, ?_, ?_⟩, fun d imm => ?_⟩
  · obtain ⟨hd, hs⟩ := View.badCell_two8_none h
    rw [exec_two8_mov, move8_completes _ hd hs]
    simp
  · obtain ⟨hd, hs⟩ := View.badCell_two16_none h
    rw [exec_two16_mov, move16_completes _ hd hs]
    simp
  · exact head_encode_two16 .mov (f := .regReg d r) rfl
  · exact head_encode_two16 .mov (f := .regMem d b) rfl
  · exact head_encode_two16 .mov (f := .memReg b r) rfl
  · exact (encode_two16_regImm .mov d imm).trans (imm16Bytes_eq_ofNat ..)

/-- Settles O35: `mov_twoOpRule` for the shared forms; for the direct addresses `move8_completes` and
`move16_completes` where the cells exist, `exec_badCell` where one is missing, `directBytes_eq_ofNat` for the bytes. -/
theorem movCopiesTheSource : Obligations.MovCopiesTheSource := by
  refine ⟨mov_twoOpRule, fun s d a h => ?_, fun s d a h => ?_, fun s a r h => ?_, fun s a r h => ?_,
    fun s v x h _ => exec_badCell h, fun n d => ⟨?_, ?_⟩, fun n d => ⟨?_, ?_⟩⟩
  · exact (exec_movR8Addr d a s).trans (move8_completes 3 rfl (State.badCell_one_of_lt h))
  · exact (exec_movR16Addr d a s).trans (move16_completes 3 rfl (State.badCell_two_of_succ_lt h))
  · exact (exec_movAddrR8 a r s).trans (move8_completes 3 (State.badCell_one_of_lt h) rfl)
  · exact (exec_movAddrR16 a r s).trans (move16_completes 3 (State.badCell_two_of_succ_lt h) rfl)
  · exact directBytes_eq_ofNat 0 0 d.num n
  · exact directBytes_eq_ofNat 1 0 d.num n
  · exact directBytes_eq_ofNat 0 1 d.num n
  · exact directBytes_eq_ofNat 1 1 d.num n

end Sys2Proof.Machine

/-! ## Addition and subtraction (42_add_sub.md, sections 1 to 3): `Add_W`, `Sub_W`, `SetSZP_W` and the eight
instructions -/

namespace Sys2Proof.Machine

/-! ### Results by the carry or borrow, signed values by the top bit

Modulo and sign each leave two linear cases, with `2 ^ w` and `2 ^ (w - 1)` as unknowns; `omega` does the rest at
every width. -/

/-- The result of an addition, by the carry out: the sum itself, or the sum less `2^W`. -/
theorem addResult_cases {W a b c : Nat} (ha : a < 2 ^ W) (hb : b < 2 ^ W) (hc : c ≤ 1) :
    (a + b + c < 2 ^ W ∧ addResult W a b c = a + b + c) ∨
    (2 ^ W ≤ a + b + c ∧ addResult W a b c + 2 ^ W = a + b + c) := by
  unfold addResult
  rcases Nat.lt_or_ge (a + b + c) (2 ^ W) with h | h
  · exact .inl ⟨h, Nat.mod_eq_of_lt h⟩
  · rw [Nat.mod_eq_sub_mod h, Nat.mod_eq_of_lt (by omega)]
    omega

theorem subResult_cast (W a b c : Nat) : (subResult W a b c : Int) = ((a : Int) - b - c) % (2 ^ W : Nat) :=
  Int.toNat_of_nonneg (Int.emod_nonneg _ (by simp))

/-- The result of a subtraction, by the borrow: the difference itself, or the difference and `2^W`. -/
theorem subResult_cases {W a b c : Nat} (ha : a < 2 ^ W) (hb : b < 2 ^ W) (hc : c ≤ 1) :
    (b + c ≤ a ∧ subResult W a b c + (b + c) = a) ∨
    (a < b + c ∧ subResult W a b c + (b + c) = a + 2 ^ W) := by
  have hr := subResult_cast W a b c
  rcases Nat.lt_or_ge a (b + c) with h | h
  · rw [← Int.add_emod_right, Int.emod_eq_of_lt (by omega) (by omega)] at hr
    omega
  · rw [Int.emod_eq_of_lt (by omega) (by omega)] at hr
    omega

/-- The signed value of a bit vector, by its top bit. -/
theorem toInt_cases {w : Nat} (x : BitVec w) :
    (x.toNat < 2 ^ (w - 1) ∧ x.toInt = x.toNat) ∨ (2 ^ (w - 1) ≤ x.toNat ∧ x.toInt = x.toNat - (2 ^ w : Nat)) := by
  rw [BitVec.toInt_eq_msb_cond, BitVec.msb_eq_decide]
  by_cases h : 2 ^ (w - 1) ≤ x.toNat
  · simp [h]
  · simp [h, Nat.lt_of_not_le h]

/-! ### OF of `Add_W` and `Sub_W` (R120, R121) -/

theorem addW_of_iff_signs {w : Nat} (a b : BitVec w) (c : Bool) :
    (addW a b c).of = true ↔ a.msb = b.msb ∧ (addW a b c).result.msb ≠ a.msb := by
  simp [addW]

theorem subW_of_iff_signs {w : Nat} (a b : BitVec w) (c : Bool) :
    (subW a b c).of = true ↔ a.msb ≠ b.msb ∧ (subW a b c).result.msb ≠ a.msb := by
  simp [subW]

/-- OF of an addition says that the signed sum does not fit. -/
theorem addW_of_iff_overflow {w : Nat} (hw : 0 < w) (a b : BitVec w) (c : Bool) :
    (addW a b c).of = true ↔ a.toInt + b.toInt + c.toNat < -(2 ^ (w - 1) : Int) ∨
      (2 ^ (w - 1) : Int) ≤ a.toInt + b.toInt + c.toNat := by
  have hp := Nat.two_pow_pred_mul_two hw
  have hcast : (2 ^ (w - 1) : Int) = (2 ^ (w - 1) : Nat) := by norm_cast
  have hc := c.toNat_le
  have hr := addResult_cases a.isLt b.isLt hc
  have ha := toInt_cases a
  have hb := toInt_cases b
  rw [addW_of_iff_signs, hcast]
  simp only [BitVec.msb_eq_decide, addW_toNat, ne_eq, decide_eq_decide]
  omega

/-- OF of a subtraction says that the signed difference does not fit. -/
theorem subW_of_iff_overflow {w : Nat} (hw : 0 < w) (a b : BitVec w) (c : Bool) :
    (subW a b c).of = true ↔ a.toInt - b.toInt - c.toNat < -(2 ^ (w - 1) : Int) ∨
      (2 ^ (w - 1) : Int) ≤ a.toInt - b.toInt - c.toNat := by
  have hp := Nat.two_pow_pred_mul_two hw
  have hcast : (2 ^ (w - 1) : Int) = (2 ^ (w - 1) : Nat) := by norm_cast
  have hc := c.toNat_le
  have hr := subResult_cases a.isLt b.isLt hc
  have ha := toInt_cases a
  have hb := toInt_cases b
  rw [subW_of_iff_signs, hcast]
  simp only [BitVec.msb_eq_decide, subW_toNat, ne_eq, decide_eq_decide]
  omega

/-- Settles O31: result, CF and AF are read off the definition; the two readings of OF are `addW_of_iff_signs` and
`addW_of_iff_overflow`. -/
theorem addHelperMatchesTheRule : Obligations.AddHelperMatchesTheRule := by
  intro w a b c hw
  refine ⟨addW_toNat a b c, rfl, rfl, ?_, ?_⟩
  · exact Bool.eq_iff_iff.mpr ((addW_of_iff_signs a b c).trans decide_eq_true_iff.symm)
  · exact Bool.eq_iff_iff.mpr ((addW_of_iff_overflow (by omega) a b c).trans decide_eq_true_iff.symm)

/-- Settles O32: the result is `subResult_cast`, the borrows are the definition's moved from integers to naturals, the
two readings of OF are `subW_of_iff_signs` and `subW_of_iff_overflow`. -/
theorem subHelperMatchesTheRule : Obligations.SubHelperMatchesTheRule := by
  intro w a b c hw
  refine ⟨?_, decide_eq_decide.mpr (by omega), decide_eq_decide.mpr (by omega), ?_, ?_⟩
  · rw [subW_toNat, subResult_cast, Nat.cast_pow, Nat.cast_ofNat]
  · exact Bool.eq_iff_iff.mpr ((subW_of_iff_signs a b c).trans decide_eq_true_iff.symm)
  · exact Bool.eq_iff_iff.mpr ((subW_of_iff_overflow (by omega) a b c).trans decide_eq_true_iff.symm)

/-- Settles O33: `setSZP_eq` writes the three flags over the number of the result and keeps the others. -/
theorem resultFlagsMatchTheRule : Obligations.ResultFlagsMatchTheRule := by
  intro w r f _
  rw [setSZP_eq]
  exact ⟨rfl, rfl, rfl, rfl, rfl, rfl⟩

/-! ### The shape of a two-operand rule (R99)

The faults and the first bytes are the same for every operation; what is left is the completion at both widths. -/

@[simp] theorem State.setFlags_ipAfter (s : State) (f : Flags) (n : Nat) : (s.setFlags f).ipAfter n = s.ipAfter n := rfl

/-- A two-operand operation keeps its rule when it completes by it at both widths. -/
theorem twoOpRule_of_completes {op : TwoOp} {stores : Bool} {value : Nat → Nat → Nat → Flags → Nat}
    {flags : Nat → Nat → Nat → Flags → Flags}
    (h8 : ∀ (s : State) (f : Form8), s.locBad8 (dst8 f) = none → s.opBad8 (src8 f) = none →
      exec (.two8 op f) s =
        .next { (if stores then s.putLoc8 (dst8 f) (BitVec.ofNat 8
                  (value 8 (s.locValue8 (dst8 f)).toNat (s.opValue8 (src8 f)).toNat s.flags)) else s) with
          flags := flags 8 (s.locValue8 (dst8 f)).toNat (s.opValue8 (src8 f)).toNat s.flags
          ip := s.ipAfter (formLength8 f)
          run := .running })
    (h16 : ∀ (s : State) (f : Form16), s.locBad16 (dst16 f) = none → s.opBad16 (src16 f) = none →
      exec (.two16 op f) s =
        .next { (if stores then s.putLoc16 (dst16 f) (BitVec.ofNat 16
                  (value 16 (s.locValue16 (dst16 f)).toNat (s.opValue16 (src16 f)).toNat s.flags)) else s) with
          flags := flags 16 (s.locValue16 (dst16 f)).toNat (s.opValue16 (src16 f)).toNat s.flags
          ip := s.ipAfter (formLength16 f)
          run := .running }) :
    TwoOpRule op (0x10 + 2 * op.num) (0x40 + 8 * op.num) stores value flags := by
  refine ⟨fun s f h => ?_, fun s f h => ?_, fun s f x => exec_two8_badCell, fun s f x => exec_two16_badCell,
    head_encode_two8 op, fun d r b => ⟨?_, ?_, ?_⟩, fun d imm => ?_⟩
  · obtain ⟨hd, hs⟩ := View.badCell_two8_none h
    exact h8 s f hd hs
  · obtain ⟨hd, hs⟩ := View.badCell_two16_none h
    exact h16 s f hd hs
  · exact head_encode_two16 op (f := .regReg d r) rfl
  · exact head_encode_two16 op (f := .regMem d b) rfl
  · exact head_encode_two16 op (f := .memReg b r) rfl
  · exact (encode_two16_regImm op d imm).trans (imm16Bytes_eq_ofNat ..)

/-- A two-operand operation that goes through the template of R99 keeps the rule its ALU function computes. -/
theorem twoOpRule_of_alu {op : TwoOp} {value : Nat → Nat → Nat → Flags → Nat}
    {flags : Nat → Nat → Nat → Flags → Flags} (alu : {w : Nat} → BitVec w → BitVec w → Flags → AluOut w)
    (halu : ∀ {w : Nat} (a b : BitVec w) (f : Flags),
      alu a b f = ⟨BitVec.ofNat w (value w a.toNat b.toNat f), flags w a.toNat b.toNat f⟩)
    (h8 : ∀ f s, exec (.two8 op f) s = twoOp8 alu (dst8 f) (src8 f) (formLength8 f) s)
    (h16 : ∀ f s, exec (.two16 op f) s = twoOp16 alu (dst16 f) (src16 f) (formLength16 f) s) :
    TwoOpRule op (0x10 + 2 * op.num) (0x40 + 8 * op.num) true value flags := by
  refine twoOpRule_of_completes (fun s f hd hs => ?_) (fun s f hd hs => ?_)
  · rw [h8, twoOp8_ok alu _ hd hs, halu, State.complete_eq_ipAfter, State.setFlags_ipAfter, State.putLoc8_ipAfter]
    rfl
  · rw [h16, twoOp16_ok alu _ hd hs, halu, State.complete_eq_ipAfter, State.setFlags_ipAfter, State.putLoc16_ipAfter]
    rfl

/-! ### ADD, ADC, SUB, SBB (R123 to R126) -/

theorem addW_eq_numbers {w : Nat} (a b : BitVec w) (c : Bool) (f : Flags) :
    (⟨(addW a b c).result, f.ofSum (addW a b c)⟩ : AluOut w) =
      ⟨BitVec.ofNat w (addResult w a.toNat b.toNat c.toNat), addFlags w a.toNat b.toNat c.toNat⟩ := by
  rw [ofSum_addW, addW_result]

theorem subW_eq_numbers {w : Nat} (a b : BitVec w) (c : Bool) (f : Flags) :
    (⟨(subW a b c).result, f.ofSum (subW a b c)⟩ : AluOut w) =
      ⟨BitVec.ofNat w (subResult w a.toNat b.toNat c.toNat), subFlags w a.toNat b.toNat c.toNat⟩ := by
  rw [ofSum_subW, subW_result]

/-- Settles O36: ADD is the template of R99 on `Add_W` without carry. -/
theorem addStoresTheSumAndAllFlags : Obligations.AddStoresTheSumAndAllFlags :=
  twoOpRule_of_alu aluAdd (fun a b f => addW_eq_numbers a b false f) exec_two8_add exec_two16_add

/-- Settles O37: ADC is the template of R99 on `Add_W` with the incoming carry. -/
theorem adcAddsTheIncomingCarry : Obligations.AdcAddsTheIncomingCarry :=
  twoOpRule_of_alu aluAdc (fun a b f => addW_eq_numbers a b f.cf f) exec_two8_adc exec_two16_adc

/-- Settles O38: SUB is the template of R99 on `Sub_W` without borrow. -/
theorem subStoresTheDifferenceAndAllFlags : Obligations.SubStoresTheDifferenceAndAllFlags :=
  twoOpRule_of_alu aluSub (fun a b f => subW_eq_numbers a b false f) exec_two8_sub exec_two16_sub

/-- Settles O39: SBB is the template of R99 on `Sub_W` with the incoming borrow. -/
theorem sbbSubtractsTheIncomingBorrow : Obligations.SbbSubtractsTheIncomingBorrow :=
  twoOpRule_of_alu aluSbb (fun a b f => subW_eq_numbers a b f.cf f) exec_two8_sbb exec_two16_sbb

/-! ### CMP (R127) -/

theorem cmpFlags_eq {w : Nat} (a b : BitVec w) (f : Flags) : cmpFlags a b f = subFlags w a.toNat b.toNat 0 :=
  ofSum_subW f a b false

/-- CMP keeps the rule of SUB without the store. -/
theorem cmp_twoOpRule :
    TwoOpRule .cmp 0x20 0x80 false (fun W a b _ => subResult W a b 0) (fun W a b _ => subFlags W a b 0) := by
  refine twoOpRule_of_completes (op := .cmp) (fun s f hd hs => ?_) (fun s f hd hs => ?_)
  · rw [exec_two8_cmp, compare8_ok _ hd hs, cmpFlags_eq, State.complete_eq_ipAfter]
    rfl
  · rw [exec_two16_cmp, compare16_ok _ hd hs, cmpFlags_eq, State.complete_eq_ipAfter]
    rfl

theorem cmpFlags_zf_iff {w : Nat} (a b : BitVec w) (f : Flags) : (cmpFlags a b f).zf = true ↔ a = b := by
  have hr := subResult_cases a.isLt b.isLt (Nat.zero_le 1)
  rw [cmpFlags_eq, ← BitVec.toNat_inj]
  simp only [subFlags, decide_eq_true_iff]
  omega

theorem cmpFlags_cf_iff {w : Nat} (a b : BitVec w) (f : Flags) : (cmpFlags a b f).cf = true ↔ a.toNat < b.toNat := by
  rw [cmpFlags_eq]
  exact decide_eq_true_iff

/-- SF is the sign of the difference where that fits, and its opposite where OF says that it does not. -/
theorem cmpFlags_sf_ne_of_iff {w : Nat} (hw : 0 < w) (a b : BitVec w) (f : Flags) :
    ((cmpFlags a b f).sf != (cmpFlags a b f).of) = true ↔ a.toInt < b.toInt := by
  have hp := Nat.two_pow_pred_mul_two hw
  have hr := subResult_cases a.isLt b.isLt (Nat.zero_le 1)
  have ha := toInt_cases a
  have hb := toInt_cases b
  rw [cmpFlags_eq, bne_iff_ne, ne_eq, Bool.eq_iff_iff]
  simp only [subFlags, topBit, decide_eq_true_iff, Bool.and_eq_true, bne_iff_ne, ne_eq, decide_eq_decide]
  omega

/-- Settles O40: the rule is `cmp_twoOpRule`, the three meanings are those of `cmpFlags` at either width. -/
theorem cmpSetsTheFlagsOfSubOnly : Obligations.CmpSetsTheFlagsOfSubOnly :=
  ⟨cmp_twoOpRule, ⟨cmpFlags_zf_iff, cmpFlags_zf_iff⟩, ⟨cmpFlags_cf_iff, cmpFlags_cf_iff⟩,
    cmpFlags_sf_ne_of_iff (by decide), cmpFlags_sf_ne_of_iff (by decide)⟩

/-! ### The one-register operations: NEG, INC, DEC (R128 to R130) -/

theorem encode_unary8 (op : UnaryOp) (r : Reg8) : encode (.unary8 op r) = unaryBytes op 0 r.num := by
  cases op <;> rfl

theorem encode_unary16 (op : UnaryOp) (r : Reg16) : encode (.unary16 op r) = unaryBytes op 1 r.num := by
  cases op <;> rfl

/-- A one-register operation that goes through its template keeps the rule its ALU function computes. -/
theorem unaryRule_of_alu {op : UnaryOp} {value : Nat → Nat → Nat} {flags : Nat → Nat → Flags → Flags}
    (alu : {w : Nat} → BitVec w → Flags → AluOut w)
    (halu : ∀ {w : Nat} (x : BitVec w) (f : Flags), 0 < w →
      alu x f = ⟨BitVec.ofNat w (value w x.toNat), flags w x.toNat f⟩)
    (h8 : ∀ r s, exec (.unary8 op r) s = unaryOp8 alu r s)
    (h16 : ∀ r s, exec (.unary16 op r) s = unaryOp16 alu r s) : UnaryRule op op.num value flags := by
  refine ⟨fun s r => ?_, fun s r => ?_, encode_unary8 op, encode_unary16 op⟩
  · rw [h8, unaryOp8, halu _ _ (by decide), State.complete_eq_ipAfter]
    rfl
  · rw [h16, unaryOp16, halu _ _ (by decide), State.complete_eq_ipAfter]
    rfl

theorem aluNeg_eq {w : Nat} (x : BitVec w) (f : Flags) :
    aluNeg x f = ⟨BitVec.ofNat w (subResult w 0 x.toNat 0), subFlags w 0 x.toNat 0⟩ := by
  rw [aluNeg, subW_eq_numbers, BitVec.toNat_ofNat, Nat.zero_mod, Bool.toNat_false]

theorem toNat_ofNat_one {w : Nat} (hw : 0 < w) : (BitVec.ofNat w 1).toNat = 1 := by
  rw [BitVec.toNat_ofNat, Nat.one_mod_two_pow hw]

theorem aluInc_eq {w : Nat} (x : BitVec w) (f : Flags) (hw : 0 < w) :
    aluInc x f = ⟨BitVec.ofNat w (addResult w x.toNat 1 0), { addFlags w x.toNat 1 0 with cf := f.cf }⟩ := by
  rw [aluInc, ofSumKeepCF_eq, ofSum_addW, addW_result, toNat_ofNat_one hw, Bool.toNat_false]

theorem aluDec_eq {w : Nat} (x : BitVec w) (f : Flags) (hw : 0 < w) :
    aluDec x f = ⟨BitVec.ofNat w (subResult w x.toNat 1 0), { subFlags w x.toNat 1 0 with cf := f.cf }⟩ := by
  rw [aluDec, ofSumKeepCF_eq, ofSum_subW, subW_result, toNat_ofNat_one hw, Bool.toNat_false]

/-- `0 - x` overflows for the most negative value only. -/
theorem subFlags_zero_of {W x : Nat} (hW : 0 < W) (hx : x < 2 ^ W) :
    (subFlags W 0 x 0).of = decide (x = 2 ^ (W - 1)) := by
  have hp := Nat.two_pow_pred_mul_two hW
  have hr := subResult_cases (Nat.two_pow_pos W) hx (Nat.zero_le 1)
  rw [Bool.eq_iff_iff]
  simp only [subFlags, topBit, Bool.and_eq_true, bne_iff_ne, ne_eq, decide_eq_decide, decide_eq_true_iff]
  omega

/-- Settles O42: NEG is the one-register template on `Sub_W(0, x, 0)`; its CF and AF say that `x` and its low digit
are above 0. -/
theorem negSubtractsFromZero : Obligations.NegSubtractsFromZero := by
  refine ⟨unaryRule_of_alu (op := .neg) aluNeg (fun x f _ => aluNeg_eq x f) exec_unary8_neg exec_unary16_neg,
    fun W x hW hx => ⟨?_, subFlags_zero_of (by omega) hx, ?_⟩⟩
  · exact decide_eq_decide.mpr Nat.pos_iff_ne_zero
  · exact decide_eq_decide.mpr Nat.pos_iff_ne_zero

/-- Settles O43: INC is the one-register template on `Add_W(x, 1, 0)`, CF kept. -/
theorem incAddsOneKeepingCarry : Obligations.IncAddsOneKeepingCarry :=
  unaryRule_of_alu (op := .inc) aluInc aluInc_eq exec_unary8_inc exec_unary16_inc

/-- Settles O44: DEC is the one-register template on `Sub_W(x, 1, 0)`, CF kept. -/
theorem decSubtractsOneKeepingCarry : Obligations.DecSubtractsOneKeepingCarry :=
  unaryRule_of_alu (op := .dec) aluDec aluDec_eq exec_unary8_dec exec_unary16_dec

end Sys2Proof.Machine

/-! ## Multiplication and division (43_mul_div.md, sections 1 and 2): MUL and DIV -/

namespace Sys2Proof.Machine

/-- An instruction that writes registers only, then completes: IP and RUN move as R17 says. -/
theorem State.complete_eq_of_regs {s t : State} (h : t = { s with regs := t.regs }) (n : Nat) :
    t.complete n = { s with regs := t.regs, ip := s.ipAfter n, run := .running } :=
  (congrArg (State.complete · n) h).trans (complete_eq_ipAfter _ n)

/-- AX over its halves (R12). -/
theorem State.ax_toNat_eq_halves (s : State) :
    (s.reg16 .ax).toNat = (s.reg8 .ah).toNat * 256 + (s.reg8 .al).toNat := by
  rw [← joinBytes_toNat]
  exact congrArg BitVec.toNat (s.reg16_eq_join .ah rfl .al rfl rfl)

/-! ### MUL (R140) -/

/-- The product of two `w`-bit values fits in `2w` bits. -/
theorem toNat_ofNat_product {w : Nat} (x y : BitVec w) :
    (BitVec.ofNat (w + w) (x.toNat * y.toNat)).toNat = x.toNat * y.toNat := by
  rw [BitVec.toNat_ofNat, Nat.pow_add]
  exact Nat.mod_eq_of_lt (Nat.mul_lt_mul'' x.isLt y.isLt)

/-- CF and OF after MUL say that the product needs its upper half. -/
theorem ofMul_eq_of_upper {w p : Nat} {upper : BitVec w} (f : Flags) (h : upper.toNat = p / 2 ^ w) :
    f.ofMul upper = { f with cf := decide (2 ^ w ≤ p), of := decide (2 ^ w ≤ p) } := by
  have hp : upper ≠ 0 ↔ 2 ^ w ≤ p := by
    rw [ne_eq, ← BitVec.toNat_inj, h, BitVec.ofNat_eq_ofNat, BitVec.toNat_ofNat, Nat.zero_mod, Nat.div_eq_zero_iff]
    have hw := Nat.two_pow_pos w
    omega
  simp only [Flags.ofMul, hp]

theorem mulBy8_ax (x : Byte) (s : State) : ((mulBy8 x s).reg16 .ax).toNat = (s.reg8 .al).toNat * x.toNat :=
  toNat_ofNat_product (s.reg8 .al) x

theorem mulBy8_reg16_ne (x : Byte) (s : State) {q : Reg16} (h : q ≠ .ax) : (mulBy8 x s).reg16 q = s.reg16 q :=
  Regs.get_set_ne _ _ _ _ h

theorem mulBy8_flags (x : Byte) (s : State) :
    (mulBy8 x s).flags = { s.flags with cf := decide (256 ≤ (s.reg8 .al).toNat * x.toNat)
                                        of := decide (256 ≤ (s.reg8 .al).toNat * x.toNat) } := by
  refine ofMul_eq_of_upper s.flags ?_
  rw [hiByte_toNat]
  exact congrArg (· / 256) (toNat_ofNat_product (s.reg8 .al) x)

theorem upperWord_toNat (p : BitVec 32) : (p.extractLsb' 16 16).toNat = p.toNat / 65536 := by
  rw [BitVec.extractLsb'_toNat, Nat.shiftRight_eq_div_pow]
  omega

theorem lowerWord_toNat (p : BitVec 32) : (p.extractLsb' 0 16).toNat = p.toNat % 65536 := by
  rw [BitVec.extractLsb'_toNat, Nat.shiftRight_zero]

theorem mulBy16_dx (x : Word) (s : State) :
    ((mulBy16 x s).reg16 .dx).toNat = (s.reg16 .ax).toNat * x.toNat / 65536 :=
  (upperWord_toNat _).trans (congrArg (· / 65536) (toNat_ofNat_product (s.reg16 .ax) x))

theorem mulBy16_ax (x : Word) (s : State) :
    ((mulBy16 x s).reg16 .ax).toNat = (s.reg16 .ax).toNat * x.toNat % 65536 :=
  (lowerWord_toNat _).trans (congrArg (· % 65536) (toNat_ofNat_product (s.reg16 .ax) x))

theorem mulBy16_reg16_ne (x : Word) (s : State) {q : Reg16} (ha : q ≠ .ax) (hd : q ≠ .dx) :
    (mulBy16 x s).reg16 q = s.reg16 q :=
  (Regs.get_set_ne _ _ _ _ hd).trans (Regs.get_set_ne _ _ _ _ ha)

theorem mulBy16_flags (x : Word) (s : State) :
    (mulBy16 x s).flags = { s.flags with cf := decide (65536 ≤ (s.reg16 .ax).toNat * x.toNat)
                                         of := decide (65536 ≤ (s.reg16 .ax).toNat * x.toNat) } :=
  ofMul_eq_of_upper s.flags (mulBy16_dx x s)

/-- Settles O46: the product's halves, the flags and the registers kept are those of `mulBy8` and `mulBy16`. -/
theorem mulStoresTheFullProduct : Obligations.MulStoresTheFullProduct := by
  refine ⟨fun s r => ⟨_, exec_unary8_mul r s, ?_, mulBy8_ax _ s, fun q => mulBy8_reg16_ne _ s, mulBy8_flags _ s⟩,
    fun s r => ⟨_, exec_unary16_mul r s, ?_, ?_, fun q => mulBy16_reg16_ne _ s, mulBy16_flags _ s⟩,
    encode_unary8 .mul, encode_unary16 .mul⟩
  · exact State.complete_eq_ipAfter ..
  · exact State.complete_eq_ipAfter ..
  · rw [State.complete_reg16, State.complete_reg16, mulBy16_dx, mulBy16_ax]
    exact Nat.div_add_mod' ..

/-! ### DIV (R141)

The dividend is an upper half `h` and a lower half `l` below the base `B`, the divisor is `d`. -/

/-- The quotient has one digit where the upper half is below the divisor. -/
theorem quotient_lt_of_upper_lt {B h l d : Nat} (hl : l < B) (hd : h < d) : (h * B + l) / d < B := by
  refine Nat.div_lt_of_lt_mul ?_
  calc h * B + l < (h + 1) * B := by rw [Nat.succ_mul]; exact Nat.add_lt_add_left hl _
    _ ≤ d * B := Nat.mul_le_mul_right B hd

/-- The quotient needs a second digit where the upper half is not below the divisor. -/
theorem base_le_quotient_of_le_upper {B h l d : Nat} (h0 : d ≠ 0) (hd : d ≤ h) : B ≤ (h * B + l) / d := by
  rw [Nat.le_div_iff_mul_le (Nat.pos_of_ne_zero h0)]
  calc B * d ≤ B * h := Nat.mul_le_mul_left B hd
    _ = h * B := Nat.mul_comm ..
    _ ≤ h * B + l := Nat.le_add_right ..

theorem ax_quotient_lt {s : State} {x : Byte} (h : (s.reg8 .ah).toNat < x.toNat) :
    (s.reg16 .ax).toNat / x.toNat < 256 := by
  rw [State.ax_toNat_eq_halves]
  exact quotient_lt_of_upper_lt (s.reg8 .al).isLt h

theorem dxax_quotient_lt {s : State} {x : Word} (h : (s.reg16 .dx).toNat < x.toNat) :
    ((s.reg16 .dx).toNat * 65536 + (s.reg16 .ax).toNat) / x.toNat < 65536 :=
  quotient_lt_of_upper_lt (s.reg16 .ax).isLt h

theorem ax_quotient_overflows {s : State} {x : Byte} (h : x.toNat ≤ (s.reg8 .ah).toNat) :
    x = 0 ∨ 256 ≤ (s.reg16 .ax).toNat / x.toNat := by
  rw [State.ax_toNat_eq_halves, ← BitVec.toNat_inj]
  exact or_iff_not_imp_left.mpr fun h0 => base_le_quotient_of_le_upper h0 h

theorem dxax_quotient_overflows {s : State} {x : Word} (h : x.toNat ≤ (s.reg16 .dx).toNat) :
    x = 0 ∨ 65536 ≤ ((s.reg16 .dx).toNat * 65536 + (s.reg16 .ax).toNat) / x.toNat := by
  rw [← BitVec.toNat_inj]
  exact or_iff_not_imp_left.mpr fun h0 => base_le_quotient_of_le_upper h0 h

theorem ne_zero_of_lt_toNat {w n : Nat} {x : BitVec w} (h : n < x.toNat) : x ≠ 0 := by
  rintro rfl
  simp at h

theorem divBy8_of_upper_lt {s : State} {x : Byte} (h : (s.reg8 .ah).toNat < x.toNat) :
    divBy8 x s = .ok ((s.setReg8 .al (BitVec.ofNat 8 ((s.reg16 .ax).toNat / x.toNat))).setReg8 .ah
      (BitVec.ofNat 8 ((s.reg16 .ax).toNat % x.toNat))) :=
  (if_neg (ne_zero_of_lt_toNat h)).trans (if_neg (Nat.not_le.mpr (ax_quotient_lt h)))

theorem divBy16_of_upper_lt {s : State} {x : Word} (h : (s.reg16 .dx).toNat < x.toNat) :
    divBy16 x s = .ok ((s.setReg16 .ax
        (BitVec.ofNat 16 (((s.reg16 .dx).toNat * 65536 + (s.reg16 .ax).toNat) / x.toNat))).setReg16 .dx
      (BitVec.ofNat 16 (((s.reg16 .dx).toNat * 65536 + (s.reg16 .ax).toNat) % x.toNat))) :=
  (if_neg (ne_zero_of_lt_toNat h)).trans (if_neg (Nat.not_le.mpr (dxax_quotient_lt h)))

/-- Both conditions of R141 that the division fails on raise the same fault. -/
theorem divBy8_of_le_upper {s : State} {x : Byte} (h : x.toNat ≤ (s.reg8 .ah).toNat) :
    divBy8 x s = .error s.divideFault := by
  rcases ax_quotient_overflows h with h0 | hq
  · exact if_pos h0
  · simp only [divBy8, if_pos hq, ite_self]

theorem divBy16_of_le_upper {s : State} {x : Word} (h : x.toNat ≤ (s.reg16 .dx).toNat) :
    divBy16 x s = .error s.divideFault := by
  rcases dxax_quotient_overflows h with h0 | hq
  · exact if_pos h0
  · simp only [divBy16, if_pos hq, ite_self]

/-- DIV at W = 8 completes where AH is below the divisor, with what it leaves in its registers. -/
theorem exec_unary8_div_of_upper_lt {s : State} {r : Reg8} (h : (s.reg8 .ah).toNat < (s.reg8 r).toNat) :
    ∃ t, exec (.unary8 .div r) s = .next t ∧ t = { s with regs := t.regs, ip := s.ipAfter 2, run := .running } ∧
      (t.reg8 .al).toNat = (s.reg16 .ax).toNat / (s.reg8 r).toNat ∧
      (t.reg8 .ah).toNat = (s.reg16 .ax).toNat % (s.reg8 r).toNat ∧
      (∀ q : Reg16, q ≠ .ax → t.reg16 q = s.reg16 q) := by
  have hdiv := divBy8_of_upper_lt h
  have hx : (s.reg8 r).toNat < 256 := (s.reg8 r).isLt
  have hr := Nat.mod_lt (s.reg16 .ax).toNat (Nat.zero_lt_of_lt h)
  refine ⟨_, by rw [exec_unary8_div, hdiv, State.attempt_ok], State.complete_eq_of_regs (divBy8_ok hdiv) 2, ?_, ?_,
    fun q hq => ?_⟩
  · rw [State.complete_reg8, State.reg8_setReg8, if_neg (by decide), State.reg8_setReg8_self]
    exact Nat.mod_eq_of_lt (ax_quotient_lt h)
  · rw [State.complete_reg8, State.reg8_setReg8_self]
    exact Nat.mod_eq_of_lt (hr.trans hx)
  · rw [State.complete_reg16, State.reg16_setReg8_ne _ _ _ _ hq, State.reg16_setReg8_ne _ _ _ _ hq]

/-- DIV at W = 16 completes where DX is below the divisor, with what it leaves in its registers. -/
theorem exec_unary16_div_of_upper_lt {s : State} {r : Reg16} (h : (s.reg16 .dx).toNat < (s.reg16 r).toNat) :
    ∃ t, exec (.unary16 .div r) s = .next t ∧ t = { s with regs := t.regs, ip := s.ipAfter 2, run := .running } ∧
      (t.reg16 .ax).toNat = ((s.reg16 .dx).toNat * 65536 + (s.reg16 .ax).toNat) / (s.reg16 r).toNat ∧
      (t.reg16 .dx).toNat = ((s.reg16 .dx).toNat * 65536 + (s.reg16 .ax).toNat) % (s.reg16 r).toNat ∧
      (∀ q : Reg16, q ≠ .ax → q ≠ .dx → t.reg16 q = s.reg16 q) := by
  have hdiv := divBy16_of_upper_lt h
  have hx : (s.reg16 r).toNat < 65536 := (s.reg16 r).isLt
  have hr := Nat.mod_lt ((s.reg16 .dx).toNat * 65536 + (s.reg16 .ax).toNat) (Nat.zero_lt_of_lt h)
  refine ⟨_, by rw [exec_unary16_div, hdiv, State.attempt_ok], State.complete_eq_of_regs (divBy16_ok hdiv) 2, ?_, ?_,
    fun q ha hd => ?_⟩
  · exact Nat.mod_eq_of_lt (dxax_quotient_lt h)
  · exact Nat.mod_eq_of_lt (hr.trans hx)
  · rw [State.complete_reg16, State.reg16_setReg16, if_neg hd, State.reg16_setReg16, if_neg ha]

/-- Settles O47: DIV completes where the upper half of the dividend is below the divisor, and else raises before it
writes. -/
theorem divStoresQuotientAndRemainderOrFaults : Obligations.DivStoresQuotientAndRemainderOrFaults := by
  refine ⟨fun s r h => ⟨ax_quotient_lt h, exec_unary8_div_of_upper_lt h⟩,
    fun s r h => ⟨ax_quotient_overflows h, ?_⟩,
    fun s r h => ⟨dxax_quotient_lt h, exec_unary16_div_of_upper_lt h⟩,
    fun s r h => ⟨dxax_quotient_overflows h, ?_⟩, encode_unary8 .div, encode_unary16 .div⟩
  · exact congrArg (s.attempt · fun t => .next (t.complete 2)) (divBy8_of_le_upper h)
  · exact congrArg (s.attempt · fun t => .next (t.complete 2)) (divBy16_of_le_upper h)

end Sys2Proof.Machine

/-! ## Logic and shifts (44_logic_shift.md, sections 1 and 2): AND, OR, XOR, NOT, SHL, SHR -/

namespace Sys2Proof.Machine

/-! ### AND, OR, XOR (R150 to R153) -/

/-- A result whose number is `n`, with its logic flags, over that number. -/
theorem logic_eq_numbers {w n : Nat} {r : BitVec w} (f : Flags) (h : r.toNat = n) :
    (⟨r, f.ofLogic r⟩ : AluOut w) = ⟨BitVec.ofNat w n, logicFlags w n f⟩ := by
  rw [ofLogic_eq, ← h, BitVec.ofNat_toNat, BitVec.setWidth_eq]

/-- Settles O41: the three are the template of R99 on a bitwise operation, which computes on the numbers as well. -/
theorem logicStoresTheBitwiseResult : Obligations.LogicStoresTheBitwiseResult :=
  ⟨twoOpRule_of_alu (op := .and) aluAnd (fun a b f => logic_eq_numbers f (BitVec.toNat_and a b))
      exec_two8_and exec_two16_and,
    twoOpRule_of_alu (op := .or) aluOr (fun a b f => logic_eq_numbers f (BitVec.toNat_or a b))
      exec_two8_or exec_two16_or,
    twoOpRule_of_alu (op := .xor) aluXor (fun a b f => logic_eq_numbers f (BitVec.toNat_xor a b))
      exec_two8_xor exec_two16_xor⟩

/-! ### NOT (R154) -/

theorem aluNot_eq {w : Nat} (x : BitVec w) (f : Flags) :
    aluNot x f = ⟨BitVec.ofNat w (2 ^ w - 1 - x.toNat), f⟩ := by
  rw [aluNot, ← BitVec.toNat_not, BitVec.ofNat_toNat, BitVec.setWidth_eq]

/-- Settles O45: NOT is the one-register template on the complement, with the flags it was given. -/
theorem notInvertsEveryBitWithoutFlags : Obligations.NotInvertsEveryBitWithoutFlags :=
  unaryRule_of_alu (op := .not) aluNot (fun x f _ => aluNot_eq x f) exec_unary8_not exec_unary16_not

/-! ### The shape of a shift rule (R155)

The count forms and their bytes are the same for both operations; what is left is what the ALU function answers for
a count of 0 and for a count above it. -/

theorem State.shiftCount_cl_eq_mod (s : State) : s.shiftCount .cl = (s.reg16 .cx).toNat % 256 :=
  loByte_toNat (s.reg16 .cx)

theorem encode_shift8 (op : ShiftOp) (r : Reg8) (c : ShiftCount) :
    encode (.shift8 op r c) = shiftCode 0 op.num r.num c := by
  cases op <;> cases c <;> rfl

theorem encode_shift16 (op : ShiftOp) (r : Reg16) (c : ShiftCount) :
    encode (.shift16 op r c) = shiftCode 1 op.num r.num c := by
  cases op <;> cases c <;> rfl

/-- A shift that goes through its template keeps the rule its ALU function computes. -/
theorem shiftRule_of_alu {op : ShiftOp} {value : Nat → Nat → Nat → Nat} {last ovf : Nat → Nat → Nat → Bool}
    (alu : {w : Nat} → BitVec w → Nat → Flags → AluOut w)
    (hzero : ∀ {w : Nat} (x : BitVec w) (f : Flags), alu x 0 f = ⟨x, f⟩)
    (hpos : ∀ {w : Nat} (x : BitVec w) {n : Nat} (f : Flags), 1 ≤ n →
      alu x n f = ⟨BitVec.ofNat w (value w x.toNat n),
        shiftedFlags w (value w x.toNat n) n (last w x.toNat n) (ovf w x.toNat n) f⟩)
    (h8 : ∀ r c s, exec (.shift8 op r c) s = shiftOp8 alu r c (shiftLength c) s)
    (h16 : ∀ r c s, exec (.shift16 op r c) s = shiftOp16 alu r c (shiftLength c) s) :
    ShiftRule op op.num value last ovf := by
  refine ⟨fun s r c hc => ?_, fun s r c hc => ?_, fun s r c hc => ?_, fun s r c hc => ?_,
    fun s => ⟨rfl, s.shiftCount_cl_eq_mod, fun n => rfl⟩, encode_shift8 op, encode_shift16 op⟩
  · rw [h8, shiftOp8, hc, hzero, State.setReg8_self, State.complete_eq_ipAfter]
    rfl
  · rw [h16, shiftOp16, hc, hzero, State.setReg16_self, State.complete_eq_ipAfter]
    rfl
  · rw [h8, shiftOp8, hpos _ _ hc, State.complete_eq_ipAfter]
    rfl
  · rw [h16, shiftOp16, hpos _ _ hc, State.complete_eq_ipAfter]
    rfl

/-! ### SHL and SHR (R156, R157) -/

/-- A result whose number is `v`, with its shift flags, over that number. -/
theorem shift_eq_numbers {w v : Nat} {r : BitVec w} (n : Nat) (cf o : Bool) (f : Flags) (h : r.toNat = v) :
    (⟨r, f.ofShift n cf o r⟩ : AluOut w) = ⟨BitVec.ofNat w v, shiftedFlags w v n cf o f⟩ := by
  rw [ofShift_eq, ← h, BitVec.ofNat_toNat, BitVec.setWidth_eq]

theorem shiftLeft_toNat {w : Nat} (x : BitVec w) (n : Nat) : (x <<< n).toNat = x.toNat * 2 ^ n % 2 ^ w := by
  rw [BitVec.toNat_shiftLeft, Nat.shiftLeft_eq]

theorem shiftRight_toNat {w : Nat} (x : BitVec w) (n : Nat) : (x >>> n).toNat = x.toNat / 2 ^ n := by
  rw [BitVec.toNat_ushiftRight, Nat.shiftRight_eq_div_pow]

theorem aluShl_zero {w : Nat} (x : BitVec w) (f : Flags) : aluShl x 0 f = ⟨x, f⟩ := rfl

theorem aluShr_zero {w : Nat} (x : BitVec w) (f : Flags) : aluShr x 0 f = ⟨x, f⟩ := rfl

theorem aluShl_eq {w : Nat} (x : BitVec w) {n : Nat} (f : Flags) (hn : 1 ≤ n) :
    aluShl x n f = ⟨BitVec.ofNat w (x.toNat * 2 ^ n % 2 ^ w),
      shiftedFlags w (x.toNat * 2 ^ n % 2 ^ w) n (decide (n ≤ w) && x.toNat.testBit (w - n))
        ((decide (n ≤ w) && x.toNat.testBit (w - n)) ^^ topBit w (x.toNat * 2 ^ n % 2 ^ w)) f⟩ := by
  rw [aluShl, if_neg (Nat.ne_of_gt hn), Bool.if_false_right, ← BitVec.testBit_toNat, ← shiftLeft_toNat, topBit_toNat]
  exact shift_eq_numbers _ _ _ _ rfl

theorem aluShr_eq {w : Nat} (x : BitVec w) {n : Nat} (f : Flags) (hn : 1 ≤ n) :
    aluShr x n f = ⟨BitVec.ofNat w (x.toNat / 2 ^ n),
      shiftedFlags w (x.toNat / 2 ^ n) n (decide (n ≤ w) && x.toNat.testBit (n - 1)) (topBit w x.toNat) f⟩ := by
  rw [aluShr, if_neg (Nat.ne_of_gt hn), Bool.if_false_right, ← BitVec.testBit_toNat, ← topBit_toNat]
  exact shift_eq_numbers _ _ _ _ (shiftRight_toNat x n)

/-- Settles O49: SHL is the shift template on the product by `2 ^ n` modulo `2 ^ W`. -/
theorem shlShiftsLeftByTheWholeCount : Obligations.ShlShiftsLeftByTheWholeCount :=
  shiftRule_of_alu (op := .shl) aluShl aluShl_zero aluShl_eq exec_shift8_shl exec_shift16_shl

/-- Settles O50: SHR is the shift template on the quotient by `2 ^ n`. -/
theorem shrShiftsRightByTheWholeCount : Obligations.ShrShiftsRightByTheWholeCount :=
  shiftRule_of_alu (op := .shr) aluShr aluShr_zero aluShr_eq exec_shift8_shr exec_shift16_shr

end Sys2Proof.Machine

/-! ## Control transfer (45_control_transfer.md): the conditional jumps, JMP, LOOP, HLT -/

namespace Sys2Proof.Machine

/-! ### The shape of a jump (R72, R170) -/

theorem encode_jump (op : JumpOp) (rel : Byte) : encode (.jump op rel) = jumpBytes op rel := by
  cases op <;> rfl

/-- The target over words is the target over integers: the sign extension is the number of `rel8`, less 256 where its
top bit is set. -/
theorem State.jumpTarget_eq_targetOf (s : State) (rel : Byte) : s.jumpTarget rel = targetOf s.ip rel := by
  have hrel := toInt_cases rel
  have hext : rel.toInt = if rel.toNat < 128 then (rel.toNat : Int) else (rel.toNat : Int) - 256 := by
    split <;> omega
  rw [jumpTarget, signExtendRel, targetOf, ← hext, BitVec.ofInt_add, BitVec.ofInt_add, BitVec.ofInt_natCast,
    BitVec.ofNat_toNat, BitVec.setWidth_eq]
  rfl

/-- A jump changes IP and RUN only: IP becomes the target where it is taken, else the address after the two bytes. -/
theorem jumpIf_eq_next (taken : Bool) (rel : Byte) (s : State) :
    jumpIf taken rel s =
      .next { s with ip := if taken then targetOf s.ip rel else s.ipAfter 2, run := .running } := by
  rw [jumpIf, State.branch, State.jumpTarget_eq_targetOf, State.complete_eq_ipAfter]
  cases taken <;> rfl

/-- A jump that goes through the template of R170 keeps the rule of the condition it goes with. -/
theorem jumpRule_of_jumpIf {op : JumpOp} {condition : Flags → Bool}
    (h : ∀ rel s, exec (.jump op rel) s = jumpIf (condition s.flags) rel s) : JumpRule op op.num condition :=
  ⟨fun s rel => (h rel s).trans (jumpIf_eq_next ..), encode_jump op⟩

/-- Settles O54: JMP is the jump of R170 that is always taken. -/
theorem jmpGoesToTheTarget : Obligations.JmpGoesToTheTarget :=
  jumpRule_of_jumpIf (op := .jmp) exec_jump_jmp

/-! ### Conditions after CMP (R127)

JB, JZ and JL test one relation each. The others are built from these three: a jump on the opposite condition tests the
opposite relation, and a strict relation's condition or ZF tests the relation with equality. -/

theorem afterCmp_not {c d : Flags → Bool} {rel opp : (w : Nat) → BitVec w → BitVec w → Prop} (h : AfterCmp c rel)
    (hcond : ∀ f, d f = !c f) (hrel : ∀ {w : Nat} (a b : BitVec w), opp w a b ↔ ¬ rel w a b) : AfterCmp d opp := by
  obtain ⟨h8, h16⟩ := h
  refine ⟨fun a b f => ?_, fun a b f => ?_⟩
  · rw [hcond, hrel, ← h8 a b f, Bool.not_eq_true', Bool.not_eq_true]
  · rw [hcond, hrel, ← h16 a b f, Bool.not_eq_true', Bool.not_eq_true]

theorem afterCmp_or_zf {c d : Flags → Bool} {lt le : (w : Nat) → BitVec w → BitVec w → Prop} (h : AfterCmp c lt)
    (hcond : ∀ f, d f = (c f || f.zf)) (hrel : ∀ {w : Nat} (a b : BitVec w), le w a b ↔ lt w a b ∨ a = b) :
    AfterCmp d le := by
  obtain ⟨h8, h16⟩ := h
  refine ⟨fun a b f => ?_, fun a b f => ?_⟩
  · rw [hcond, hrel, ← h8 a b f, Bool.or_eq_true, cmpFlags_zf_iff]
  · rw [hcond, hrel, ← h16 a b f, Bool.or_eq_true, cmpFlags_zf_iff]

theorem afterCmp_condJb : AfterCmp condJb (fun _ a b => a.toNat < b.toNat) := ⟨cmpFlags_cf_iff, cmpFlags_cf_iff⟩

theorem afterCmp_condJz : AfterCmp condJz (fun _ a b => a = b) := ⟨cmpFlags_zf_iff, cmpFlags_zf_iff⟩

theorem afterCmp_condJl : AfterCmp condJl (fun _ a b => a.toInt < b.toInt) :=
  ⟨cmpFlags_sf_ne_of_iff (by decide), cmpFlags_sf_ne_of_iff (by decide)⟩

theorem afterCmp_condJbe : AfterCmp condJbe (fun _ a b => a.toNat ≤ b.toNat) :=
  afterCmp_or_zf afterCmp_condJb (fun _ => rfl) fun a b => by rw [Nat.le_iff_lt_or_eq, BitVec.toNat_inj]

theorem afterCmp_condJle : AfterCmp condJle (fun _ a b => a.toInt ≤ b.toInt) :=
  afterCmp_or_zf afterCmp_condJl (fun _ => Bool.or_comm ..) fun a b => by rw [Int.le_iff_lt_or_eq, BitVec.toInt_inj]

theorem condJa_eq_not_condJbe (f : Flags) : condJa f = !condJbe f := (Bool.not_or f.cf f.zf).symm

theorem condJge_eq_not_condJl (f : Flags) : condJge f = !condJl f := (Bool.not_not _).symm

theorem condJg_eq_not_condJle (f : Flags) : condJg f = !condJle f := by
  rw [condJle, Bool.not_or, bne, Bool.not_not, condJg]

/-- Settles O52: each jump is the jump of R170 on its condition; the meanings after CMP are those of `afterCmp_condJb`,
`afterCmp_condJz` and `afterCmp_condJbe`, and their opposites. -/
theorem flagAndUnsignedJumps : Obligations.FlagAndUnsignedJumps :=
  ⟨jumpRule_of_jumpIf (op := .jo) exec_jump_jo,
    jumpRule_of_jumpIf (op := .jno) exec_jump_jno,
    jumpRule_of_jumpIf (op := .jb) exec_jump_jb, afterCmp_condJb,
    jumpRule_of_jumpIf (op := .jnb) exec_jump_jnb,
    afterCmp_not afterCmp_condJb (fun _ => rfl) fun _ _ => Nat.not_lt.symm,
    jumpRule_of_jumpIf (op := .jz) exec_jump_jz, afterCmp_condJz,
    jumpRule_of_jumpIf (op := .jnz) exec_jump_jnz,
    afterCmp_not afterCmp_condJz (fun _ => rfl) fun _ _ => Iff.rfl,
    jumpRule_of_jumpIf (op := .jbe) exec_jump_jbe, afterCmp_condJbe,
    jumpRule_of_jumpIf (op := .ja) exec_jump_ja,
    afterCmp_not afterCmp_condJbe condJa_eq_not_condJbe fun _ _ => Nat.not_le.symm,
    jumpRule_of_jumpIf (op := .js) exec_jump_js,
    jumpRule_of_jumpIf (op := .jns) exec_jump_jns⟩

theorem condJl_eq_decide (f : Flags) : condJl f = decide (f.sf ≠ f.of) := by
  rw [condJl, bne, beq_eq_decide, decide_not]

theorem condJge_eq_decide (f : Flags) : condJge f = decide (f.sf = f.of) := beq_eq_decide ..

theorem condJle_eq_decide (f : Flags) : condJle f = (f.zf || decide (f.sf ≠ f.of)) :=
  congrArg (f.zf || ·) (condJl_eq_decide f)

theorem condJg_eq_decide (f : Flags) : condJg f = (!f.zf && decide (f.sf = f.of)) :=
  congrArg (!f.zf && ·) (condJge_eq_decide f)

/-- Settles O53: each jump is the jump of R170 on its condition; the meanings after CMP are those of `afterCmp_condJl`
and `afterCmp_condJle`, and their opposites. -/
theorem signedJumps : Obligations.SignedJumps :=
  ⟨jumpRule_of_jumpIf (op := .jl) fun rel s => condJl_eq_decide s.flags ▸ exec_jump_jl rel s, afterCmp_condJl,
    jumpRule_of_jumpIf (op := .jge) fun rel s => condJge_eq_decide s.flags ▸ exec_jump_jge rel s,
    afterCmp_not afterCmp_condJl condJge_eq_not_condJl fun _ _ => Int.not_lt.symm,
    jumpRule_of_jumpIf (op := .jle) fun rel s => condJle_eq_decide s.flags ▸ exec_jump_jle rel s, afterCmp_condJle,
    jumpRule_of_jumpIf (op := .jg) fun rel s => condJg_eq_decide s.flags ▸ exec_jump_jg rel s,
    afterCmp_not afterCmp_condJle condJg_eq_not_condJle fun _ _ => Int.not_le.symm⟩

/-! ### LOOP (R186) -/

/-- The decrement modulo 65536, without subtraction: CX = 0 wraps to 65535. -/
theorem sub_one_eq_ofNat (w : Word) : w - 1 = BitVec.ofNat 16 (w.toNat + 65535) := by
  bv_omega

/-- Settles O55: LOOP writes CX, then is the jump of R170 on the value written. -/
theorem loopDecrementsThenTests : Obligations.LoopDecrementsThenTests := by
  refine ⟨fun s rel => (exec_jump_loop rel s).trans ?_, encode_jump .loop⟩
  have hcond : (s.reg16 .cx - 1 ≠ 0) ↔ ((s.reg16 .cx).toNat + 65535) % 65536 ≠ 0 := by
    rw [Ne, eq_zero_iff_toNat, sub_one_eq_ofNat, BitVec.toNat_ofNat]
  rw [jumpIf_eq_next, ← sub_one_eq_ofNat]
  simp only [decide_eq_true_iff, hcond]
  rfl

/-! ### HLT (R187) -/

theorem State.halt_eq_ipAfter (s : State) (n : Nat) : s.halt n = { s with ip := s.ipAfter n, run := .halted } := by
  rw [halt, nextIp_eq_ipAfter]

/-- Settles O56: HLT is `State.halt`, and a halted core refuses the step. -/
theorem hltHaltsTheCore : Obligations.HltHaltsTheCore :=
  ⟨fun s => congrArg Host.Outcome.next (s.halt_eq_ipAfter 1), fun _ => step_of_halted rfl, rfl⟩

end Sys2Proof.Machine

/-! ## Exceptions (60_exceptions.md): the effect of a fault -/

namespace Sys2Proof.Machine

/-- A step after which RUN is Faulted raised a fault from the state before it (R204): the fetch raised, or the
instruction did, since one that completes leaves RUN other than Faulted. -/
theorem step_faulted_eq_raise {s t : State} (h : step s = .next t) (hrun : t.run = .faulted) :
    ∃ f, t = s.raise f := by
  obtain ⟨-, ⟨f, -, rfl⟩ | ⟨i, -, hexec⟩⟩ := step_cases h
  · exact ⟨f, rfl⟩
  · rcases exec_next_cases hexec with raised | completed
    · exact raised
    · exact absurd hrun completed.run

/-- Settles O10: the state after the step is `State.raise` of the state before, which writes FAULT and RUN only. -/
theorem faultsArePrecise : Obligations.FaultsArePrecise := by
  intro s t h hrun
  obtain ⟨⟨cause, info⟩, rfl⟩ := step_faulted_eq_raise h hrun
  exact ⟨cause, info, rfl⟩

end Sys2Proof.Machine

/-! ## Reset and the host's operations (70_reset_and_hazards.md) -/

namespace Sys2Proof.Machine

/-! ### Empty memory: power-on, Reset, ClearMemory (R230, R231, R241) -/

theorem State.byteAt_of_mem_nil {s : State} (h : s.mem = []) (a : Nat) : s.byteAt a = 0 := by
  rw [byteAt, h, Memory.read_nil]

/-- A core whose memory is all 0 raises InvalidAddressError(IP) (R202): either no instruction may start at IP, or the
first byte fetched is 0, a reserved encoding (R75). -/
theorem step_of_mem_nil {s : State} (hc : s.run.canStep = true) (hm : s.mem = [])
    (hip : s.ip.toNat < s.config.memSize) : step s = .next (s.raise s.invalidAddress) := by
  refine step_of_fetch_error hc ?_
  by_cases hs : s.startAllowed = true
  · have hzero : s.holdsBytes s.ip.toNat [0] := by
      intro k hk
      obtain rfl : k = 0 := by simpa using hk
      exact ⟨hip, State.byteAt_of_mem_nil hm _⟩
    exact fetch_reserved (why := .firstByte) hs rfl (Nat.le_of_ble_eq_true rfl) hzero
  · exact if_neg hs

/-- Settles O14: the fields are those of the power-on state, whose empty memory decides the first step. -/
theorem powerOnZeroesEverything : Obligations.PowerOnZeroesEverything := fun _ ⟨hsize, _⟩ =>
  ⟨Regs.get_zero, rfl, rfl, rfl, rfl, rfl, State.byteAt_of_mem_nil rfl, step_of_mem_nil rfl rfl hsize⟩

/-- Settles O15: the fields `State.hostReset` writes and those it leaves; ENTRY, which it reads, is among the latter,
so doing it again changes nothing. -/
theorem resetRestoresTheEntry : Obligations.ResetRestoresTheEntry := fun s =>
  ⟨Regs.get_zero, s.hostReset_flags, s.hostReset_ip, s.hostReset_run, s.hostReset_fault, s.hostReset_entry,
    s.hostReset_mem, s.hostReset_config, rfl⟩

/-- Settles O18: ClearMemory empties memory, and `step_of_mem_nil` gives the step after it. -/
theorem clearMemoryZeroesEveryCell : Obligations.ClearMemoryZeroesEveryCell :=
  ⟨fun s => State.byteAt_of_mem_nil s.clearMemory_mem, fun _ => rfl,
    fun s hc hip => step_of_mem_nil (s := s.clearMemory) hc s.clearMemory_mem hip⟩

/-! ### ReadMemory and WriteMemory (R239, R240) -/

theorem State.readMemory_of_le {s : State} {a count : Nat} (h : a + count ≤ s.config.memSize) :
    s.readMemory a count = .ok ((List.range count).map fun i => s.byteAt (a + i)) := if_pos h

theorem State.readMemory_of_lt {s : State} {a count : Nat} (h : s.config.memSize < a + count) :
    s.readMemory a count = .error (s.rangeError a) := if_neg (Nat.not_le.mpr h)

theorem State.writeMemory_of_le {s : State} {a : Nat} {bytes : List Byte} (h : a + bytes.length ≤ s.config.memSize) :
    s.writeMemory a bytes = .ok (s.placeBytes a bytes) := if_pos h

theorem State.writeMemory_of_lt {s : State} {a : Nat} {bytes : List Byte} (h : s.config.memSize < a + bytes.length) :
    s.writeMemory a bytes = .error (s.rangeError a) := if_neg (Nat.not_le.mpr h)

/-- A host range error is an AddressError naming an address at or beyond MEM_SIZE, and MEM_SIZE itself when the range
begins at or below it. -/
theorem State.rangeError_address (s : State) (a : Nat) :
    ∃ x, s.rangeError a = ⟨.addressError, x⟩ ∧ s.config.memSize ≤ x ∧ (a ≤ s.config.memSize → x = s.config.memSize) :=
  ⟨max a s.config.memSize, rfl, Nat.le_max_right .., Nat.max_eq_right⟩

/-- Settles O17: inside memory a read lists the cells and a write is `State.placeBytes`; outside, both answer
`State.rangeError`. -/
theorem hostMemoryAccessIsAllOrNothing : Obligations.HostMemoryAccessIsAllOrNothing := by
  refine ⟨fun s a count h => ?_, fun s a count h => ?_, fun s a bytes hm h => ?_, fun s a bytes h => ?_⟩
  · exact ⟨_, State.readMemory_of_le h, by simp, fun k _ => by simp⟩
  · obtain ⟨x, he, hx⟩ := s.rangeError_address a
    exact ⟨x, he ▸ State.readMemory_of_lt h, hx⟩
  · exact ⟨_, State.writeMemory_of_le h, s.placeBytes_eq a bytes,
      fun k hk => s.byteAt_placeBytes_inside a k bytes hm hk (by omega),
      fun x hx => s.byteAt_placeBytes_outside a x bytes hx⟩
  · obtain ⟨x, he, hx⟩ := s.rangeError_address a
    exact ⟨x, he ▸ State.writeMemory_of_lt h, hx⟩

/-! ### Run (R236) -/

theorem core_run_succ_of_next {s t : State} (h : step s = .next t) (k : Nat) : core.run (k + 1) s = core.run k t := by
  have hcore : core.step s = .next t := h
  simp only [Host.Core.run, hcore]

theorem State.hostRun_of_next {s t : State} (h : step s = .next t) (k : Nat) :
    s.hostRun (k + 1) = (t.hostRun k).after (stepDescriptor s t) := by
  simp only [hostRun, h]

/-- A core that may step answers a next state. -/
theorem step_next_of_canStep {s : State} (h : s.run.canStep = true) : ∃ t, step s = .next t := by
  cases hf : fetch s with
  | error f => exact ⟨_, step_of_fetch_error h hf⟩
  | ok i => rw [step_of_fetch_ok h hf]; exact exec_total i s

/-- The induction of `Run`: what holds of the report of no step, when the budget is used or the core is stopped, and is
kept when a step is put in front, holds of every run's report. -/
theorem State.hostRun_induction {P : Nat → State → RunReport → Prop} (spent : ∀ s, P 0 s (.stopAt s))
    (stopped : ∀ k s, s.run.canStep = false → P k s (.stopAt s))
    (next : ∀ k s t r, step s = .next t → P k t r → P (k + 1) s (r.after (stepDescriptor s t))) (k : Nat) (s : State) :
    P k s (s.hostRun k) := by
  induction k generalizing s with
  | zero => exact spent s
  | succ k ih =>
    cases hc : s.run.canStep with
    | false =>
      obtain ⟨why, h⟩ := step_of_stopped hc
      exact hostRun_refused h (k + 1) ▸ stopped (k + 1) s hc
    | true =>
      obtain ⟨t, h⟩ := step_next_of_canStep hc
      exact hostRun_of_next h k ▸ next k s t _ h (ih t)

theorem State.hostRun_n_le (k : Nat) (s : State) : (s.hostRun k).n ≤ k :=
  hostRun_induction (P := fun k _ r => r.n ≤ k) (fun _ => Nat.le_refl 0) (fun k _ _ => Nat.zero_le k)
    (fun _ _ _ _ _ ih => Nat.succ_le_succ ih) k s

theorem State.core_run_hostRun_n (k : Nat) (s : State) : core.run (s.hostRun k).n s = .next (s.hostRun k).final :=
  hostRun_induction (P := fun _ s r => core.run r.n s = .next r.final) (fun _ => rfl) (fun _ _ _ => rfl)
    (fun _ _ _ r h ih => (core_run_succ_of_next h r.n).trans ih) k s

theorem State.length_hostRun_trace (k : Nat) (s : State) : (s.hostRun k).trace.length = (s.hostRun k).n :=
  hostRun_induction (P := fun _ _ r => r.trace.length = r.n) (fun _ => rfl) (fun _ _ _ => rfl)
    (fun _ _ _ _ _ ih => congrArg Nat.succ ih) k s

/-- Entry `j` of the trace describes step `j` of the run. -/
theorem State.getElem_hostRun_trace (k : Nat) (s : State) : ∀ j (h : j < (s.hostRun k).trace.length),
    ∃ u v : State, core.run j s = .next u ∧ step u = .next v ∧ (s.hostRun k).trace[j] = stepDescriptor u v := by
  refine hostRun_induction (P := fun _ s r => ∀ j (h : j < r.trace.length), ∃ u v : State,
    core.run j s = .next u ∧ step u = .next v ∧ r.trace[j] = stepDescriptor u v)
    (fun _ _ h => absurd h (Nat.not_lt_zero _)) (fun _ _ _ _ h => absurd h (Nat.not_lt_zero _))
    (fun k s t r hst ih j h => ?_) k s
  cases j with
  | zero => exact ⟨s, t, rfl, hst, rfl⟩
  | succ j =>
    obtain ⟨u, v, hu, hv, hd⟩ := ih j (Nat.lt_of_succ_lt_succ h)
    exact ⟨u, v, (core_run_succ_of_next hst j).trans hu, hv, hd⟩

/-- The result flags and FAULT of a report are those of the state the run ends in. -/
theorem State.hostRun_reports_final (k : Nat) (s : State) :
    (s.hostRun k).haltedNormally = decide ((s.hostRun k).final.run = .halted) ∧
    (s.hostRun k).budgetExhausted = (s.hostRun k).final.run.canStep ∧
    (s.hostRun k).fault = (s.hostRun k).final.fault :=
  hostRun_induction (P := fun _ _ r => r.haltedNormally = decide (r.final.run = .halted) ∧
    r.budgetExhausted = r.final.run.canStep ∧ r.fault = r.final.fault)
    (fun _ => ⟨rfl, rfl, rfl⟩) (fun _ _ _ => ⟨rfl, rfl, rfl⟩) (fun _ _ _ _ _ ih => ih) k s

/-- A run whose core may still step at the end has used its whole budget. -/
theorem State.hostRun_n_of_budgetExhausted (k : Nat) (s : State) :
    (s.hostRun k).budgetExhausted = true → (s.hostRun k).n = k :=
  hostRun_induction (P := fun k _ r => r.budgetExhausted = true → r.n = k) (fun _ _ => rfl)
    (fun _ _ hc he => absurd (hc.symm.trans he) Bool.false_ne_true)
    (fun _ _ _ _ _ ih he => congrArg Nat.succ (ih he)) k s

/-- Settles O19: each clause is a fact about the report, shown by `State.hostRun_induction`. -/
theorem runStepsUntilStoppedOrOutOfBudget : Obligations.RunStepsUntilStoppedOrOutOfBudget := by
  intro k s
  obtain ⟨hhalted, hexhausted, hfault⟩ := s.hostRun_reports_final k
  exact ⟨s.hostRun_n_le k, s.core_run_hostRun_n k, s.length_hostRun_trace k, s.getElem_hostRun_trace k, hhalted,
    hexhausted, s.hostRun_n_of_budgetExhausted k, hfault⟩

end Sys2Proof.Machine

/-! ## Encodings (30_encoding.md): decoding undoes encoding, and encoding undoes decoding -/

namespace Sys2Proof

open Machine

/-! ### Numbers and names (R64, R66, R70 to R72) -/

theorem Reg8.num_lt (r : Reg8) : r.num < 8 := by cases r <;> decide
theorem Reg16.num_lt (r : Reg16) : r.num < 8 := by cases r <;> decide

@[simp] theorem Reg8.ofField_num (r : Reg8) : Reg8.ofField (BitVec.ofNat 3 r.num) = r := by cases r <;> rfl
@[simp] theorem Reg16.ofField_num (r : Reg16) : Reg16.ofField (BitVec.ofNat 3 r.num) = r := by cases r <;> rfl

@[simp] theorem Reg8.num_ofField : ∀ n : BitVec 3, (Reg8.ofField n).num = n.toNat := by decide
@[simp] theorem Reg16.num_ofField : ∀ n : BitVec 3, (Reg16.ofField n).num = n.toNat := by decide

theorem TwoOp.num_le (op : TwoOp) : op.num ≤ 8 := by cases op <;> decide
theorem TwoOp.ofNum_num (op : TwoOp) : TwoOp.ofNum op.num = some op := by cases op <;> rfl
theorem UnaryOp.ofNum_num (op : UnaryOp) : UnaryOp.ofNum op.num = some op := by cases op <;> rfl
theorem ShiftOp.ofNum_num (op : ShiftOp) : ShiftOp.ofNum op.num = some op := by cases op <;> rfl
theorem UnaryOp.num_lt (op : UnaryOp) : op.num < 8 := by cases op <;> decide
theorem ShiftOp.num_lt (op : ShiftOp) : op.num < 8 := by cases op <;> decide

theorem TwoOp.exists_num {n : Nat} (h : n ≤ 8) : ∃ op : TwoOp, op.num = n := by
  interval_cases n
  exacts [⟨.mov, rfl⟩, ⟨.add, rfl⟩, ⟨.adc, rfl⟩, ⟨.sub, rfl⟩, ⟨.sbb, rfl⟩, ⟨.and, rfl⟩, ⟨.or, rfl⟩, ⟨.xor, rfl⟩,
    ⟨.cmp, rfl⟩]

theorem UnaryOp.num_of_ofNum {n : Nat} {op : UnaryOp} (h : UnaryOp.ofNum n = some op) : op.num = n := by
  revert h
  fun_cases UnaryOp.ofNum n <;> rintro ⟨⟩ <;> rfl

theorem ShiftOp.num_of_ofNum {n : Nat} {op : ShiftOp} (h : ShiftOp.ofNum n = some op) : op.num = n := by
  revert h
  fun_cases ShiftOp.ofNum n <;> rintro ⟨⟩ <;> rfl

theorem JumpOp.num_of_ofNum {n : Nat} {op : JumpOp} (h : JumpOp.ofNum n = some op) : op.num = n := by
  revert h
  fun_cases JumpOp.ofNum n <;> rintro ⟨⟩ <;> rfl

/-! ### The first byte (R66 to R73) -/

/-- What a first byte that is not reserved says: the group, and the operation, width or register in it. -/
inductive Opcode where
  | g2 (op : TwoOp) (w : Bool)
  | unary (w : Bool)
  | shift (w : Bool)
  | imm16 (op : TwoOp) (rrr : BitVec 3)
  | direct (s w : Bool) (rrr : BitVec 3)
  | jump (op : JumpOp)
  | hlt

/-- The first byte of each group. -/
def Opcode.byte : Opcode → Byte
  | .g2 op w => g2Byte op w.toNat
  | .unary w => BitVec.ofNat 8 (0x30 + w.toNat)
  | .shift w => BitVec.ofNat 8 (0x32 + w.toNat)
  | .imm16 op rrr => BitVec.ofNat 8 (0x40 + 8 * op.num + rrr.toNat)
  | .direct s w rrr => BitVec.ofNat 8 (0xA0 + 16 * s.toNat + 8 * w.toNat + rrr.toNat)
  | .jump op => BitVec.ofNat 8 op.num
  | .hlt => 0xF4

/-- How the bytes after the first are decoded in each group. -/
def Opcode.decodeTail : Opcode → List Byte → Verdict
  | .g2 op w => decodeG2 op w
  | .unary w => decodeUnary w
  | .shift w => decodeShift w
  | .imm16 op rrr => decodeImm16 op rrr
  | .direct s w rrr => decodeDirect s w rrr
  | .jump op => decodeJump op
  | .hlt => fun _ => .done .hlt

/-- The bits of a direct-address opcode hold its direction, width and register (R69). -/
theorem direct_byte_fields : ∀ (s w : Bool) (rrr : BitVec 3),
    (0xA0 ≤ (Opcode.direct s w rrr).byte.toNat ∧ (Opcode.direct s w rrr).byte.toNat ≤ 0xBF) ∧
    (Opcode.direct s w rrr).byte.getLsbD 4 = s ∧ (Opcode.direct s w rrr).byte.getLsbD 3 = w ∧
    lowField (Opcode.direct s w rrr).byte = rrr := by decide

theorem decode_opcode (o : Opcode) (rest : List Byte) : decode (o.byte :: rest) = o.decodeTail rest := by
  cases o with
  | g2 op w => cases op <;> cases w <;> rfl
  | unary w => cases w <;> rfl
  | shift w => cases w <;> rfl
  | jump op => cases op <;> rfl
  | hlt => rfl
  | imm16 op rrr =>
    have hop := op.num_le
    have hr := rrr.isLt
    have hn : (Opcode.imm16 op rrr).byte.toNat = 0x40 + 8 * op.num + rrr.toNat := by
      rw [Opcode.byte, BitVec.toNat_ofNat]
      omega
    have hq : (0x40 + 8 * op.num + rrr.toNat - 0x40) / 8 = op.num := by omega
    have hf : lowField (Opcode.imm16 op rrr).byte = rrr := by
      apply BitVec.eq_of_toNat_eq
      rw [lowField_toNat, hn]
      omega
    simp only [decode, hn, hq, TwoOp.ofNum_num, hf, Opcode.decodeTail]
    rw [if_neg (by omega), if_neg (by omega), if_neg (by omega), if_pos (by omega)]
  | direct s w rrr =>
    obtain ⟨hn, hs, hw, hr⟩ := direct_byte_fields s w rrr
    simp only [decode, hs, hw, hr, Opcode.decodeTail]
    rw [if_neg (by omega), if_neg (by omega), if_neg (by omega), if_neg (by omega), if_pos hn]

/-- The first byte of a decoded instruction is an opcode. -/
theorem exists_opcode {b1 : Byte} {rest : List Byte} {i : Instr} (h : decode (b1 :: rest) = .done i) :
    ∃ o : Opcode, o.byte = b1 := by
  have hbit (k : Nat) : (b1.getLsbD k).toNat = b1.toNat / 2 ^ k % 2 := Nat.toNat_testBit ..
  have hw := hbit 0
  cases firstByte b1 with
  | reserved _ hd => cases (hd rest).symm.trans h
  | g2 _ hn =>
    obtain ⟨op, hop⟩ := TwoOp.exists_num (n := (b1.toNat - 0x10) / 2) (by omega)
    refine ⟨.g2 op (b1.getLsbD 0), BitVec.eq_of_toNat_eq ?_⟩
    rw [Opcode.byte, g2Byte, BitVec.toNat_ofNat]
    omega
  | unary hn =>
    refine ⟨.unary (b1.getLsbD 0), BitVec.eq_of_toNat_eq ?_⟩
    rw [Opcode.byte, BitVec.toNat_ofNat]
    omega
  | shift hn =>
    refine ⟨.shift (b1.getLsbD 0), BitVec.eq_of_toNat_eq ?_⟩
    rw [Opcode.byte, BitVec.toNat_ofNat]
    omega
  | imm16 _ hn =>
    obtain ⟨op, hop⟩ := TwoOp.exists_num (n := (b1.toNat - 0x40) / 8) (by omega)
    refine ⟨.imm16 op (lowField b1), BitVec.eq_of_toNat_eq ?_⟩
    rw [Opcode.byte, lowField_toNat, BitVec.toNat_ofNat]
    omega
  | direct hn =>
    refine ⟨.direct (b1.getLsbD 4) (b1.getLsbD 3) (lowField b1), BitVec.eq_of_toNat_eq ?_⟩
    rw [Opcode.byte, lowField_toNat, hbit, hbit, BitVec.toNat_ofNat]
    omega
  | jump _ hn =>
    have hj := JumpOp.ofNum_eq_none_iff b1.toNat
    cases hop : JumpOp.ofNum b1.toNat with
    | none => exact absurd (hj.mp hop) (not_not.mpr hn)
    | some op =>
      refine ⟨.jump op, ?_⟩
      rw [Opcode.byte, JumpOp.num_of_ofNum hop, BitVec.ofNat_toNat, BitVec.setWidth_eq]
  | hlt hn => exact ⟨.hlt, BitVec.eq_of_toNat_eq hn.symm⟩

/-! ### The mode byte (R63) -/

theorem modeByte_toNat {m r b : Nat} (hm : m < 4) (hr : r < 8) (hb : b < 8) :
    (modeByte m r b).toNat = 64 * m + 8 * r + b := by
  rw [modeByte, BitVec.toNat_ofNat]
  omega

theorem modeByte_fields {m r b : Nat} (hm : m < 4) (hr : r < 8) (hb : b < 8) :
    modeField (modeByte m r b) = BitVec.ofNat 2 m ∧ middleField (modeByte m r b) = BitVec.ofNat 3 r ∧
    lowField (modeByte m r b) = BitVec.ofNat 3 b := by
  have h := modeByte_toNat hm hr hb
  refine ⟨BitVec.eq_of_toNat_eq ?_, BitVec.eq_of_toNat_eq ?_, BitVec.eq_of_toNat_eq ?_⟩
  · rw [modeField_toNat, BitVec.toNat_ofNat]
    omega
  · rw [middleField_toNat, BitVec.toNat_ofNat]
    omega
  · rw [lowField_toNat, BitVec.toNat_ofNat]
    omega

/-- A byte is the mode byte of its fields. -/
theorem modeByte_of_fields {b2 : Byte} {m : Fin 4} (hm : (modeField b2).toFin = m) :
    modeByte m (middleField b2).toNat (lowField b2).toNat = b2 := by
  have hm : b2.toNat / 64 = m := by rw [← modeField_toNat, ← hm]; rfl
  apply BitVec.eq_of_toNat_eq
  rw [modeByte_toNat m.isLt (middleField b2).isLt (lowField b2).isLt, middleField_toNat, lowField_toNat]
  omega

/-! ### The encoding of each shape (R66 to R73) -/

/-- The bytes after the first of a byte-wide two-operand form (R67). -/
def form8Code : Form8 → List Byte
  | .regReg d r => [modeByte 3 d.num r.num]
  | .regMem d b => [modeByte 0 d.num b.num]
  | .memReg b r => [modeByte 1 r.num b.num]
  | .regImm d imm => [modeByte 2 d.num 0, imm]

theorem encode_two8 (op : TwoOp) (f : Form8) : encode (.two8 op f) = g2Byte op 0 :: form8Code f := by
  cases op <;> cases f <;> rfl

theorem encode_two16_regReg (op : TwoOp) (d r : Reg16) :
    encode (.two16 op (.regReg d r)) = [g2Byte op 1, modeByte 3 d.num r.num] := by cases op <;> rfl

theorem encode_two16_regMem (op : TwoOp) (d b : Reg16) :
    encode (.two16 op (.regMem d b)) = [g2Byte op 1, modeByte 0 d.num b.num] := by cases op <;> rfl

theorem encode_two16_memReg (op : TwoOp) (b r : Reg16) :
    encode (.two16 op (.memReg b r)) = [g2Byte op 1, modeByte 1 r.num b.num] := by cases op <;> rfl

/-! ### Well-formedness of each shape (R64) -/

/-- A byte-wide form is well formed when its base register, if it has one, may stand in `[ ]`. -/
def Form8.wf : Form8 → Bool
  | .regReg _ _ => true
  | .regMem _ b => b.isBase
  | .memReg b _ => b.isBase
  | .regImm _ _ => true

/-- A word-wide form is well formed when its base register, if it has one, may stand in `[ ]`. -/
def Form16.wf : Form16 → Bool
  | .regReg _ _ => true
  | .regMem _ b => b.isBase
  | .memReg b _ => b.isBase
  | .regImm _ _ => true

theorem Instr.wf_two8 (op : TwoOp) (f : Form8) : (Instr.two8 op f).wf = f.wf := by cases op <;> cases f <;> rfl
theorem Instr.wf_two16 (op : TwoOp) (f : Form16) : (Instr.two16 op f).wf = f.wf := by cases op <;> cases f <;> rfl
theorem Instr.wf_unary8 (op : UnaryOp) (r : Reg8) : (Instr.unary8 op r).wf = true := by cases op <;> rfl
theorem Instr.wf_unary16 (op : UnaryOp) (r : Reg16) : (Instr.unary16 op r).wf = true := by cases op <;> rfl
theorem Instr.wf_shift8 (op : ShiftOp) (r : Reg8) (c : ShiftCount) : (Instr.shift8 op r c).wf = true := by
  cases op <;> cases c <;> rfl
theorem Instr.wf_shift16 (op : ShiftOp) (r : Reg16) (c : ShiftCount) : (Instr.shift16 op r c).wf = true := by
  cases op <;> cases c <;> rfl
theorem Instr.wf_jump (op : JumpOp) (rel : Byte) : (Instr.jump op rel).wf = true := by cases op <;> rfl

/-! ### Decoding an encoding -/

theorem decodeG2_form8Code (op : TwoOp) (f : Form8) (rest : List Byte) :
    decodeG2 op false (form8Code f ++ rest) =
      if f.wf then .done (.two8 op f) else .reserved .baseField := by
  cases f with
  | regReg d r =>
    obtain ⟨hm, hr, hb⟩ := modeByte_fields (m := 3) (by decide) d.num_lt r.num_lt
    simp [decodeG2, form8Code, Form8.wf, hm, hr, hb]
  | regMem d b =>
    obtain ⟨hm, hr, hb⟩ := modeByte_fields (m := 0) (by decide) d.num_lt b.num_lt
    cases h : b.isBase <;> simp [decodeG2, form8Code, Form8.wf, hm, hr, hb, h]
  | memReg b r =>
    obtain ⟨hm, hr, hb⟩ := modeByte_fields (m := 1) (by decide) r.num_lt b.num_lt
    cases h : b.isBase <;> simp [decodeG2, form8Code, Form8.wf, hm, hr, hb, h]
  | regImm d imm =>
    obtain ⟨hm, hr, hb⟩ := modeByte_fields (m := 2) (b := 0) (by decide) d.num_lt (by decide)
    simp [decodeG2, form8Code, Form8.wf, hm, hr, hb]

theorem decode_encode_two8 (op : TwoOp) (f : Form8) (rest : List Byte) :
    decode (encode (.two8 op f) ++ rest) = if f.wf then .done (.two8 op f) else .reserved .baseField := by
  rw [encode_two8, List.cons_append]
  exact (decode_opcode (.g2 op false) _).trans (decodeG2_form8Code op f rest)

theorem decode_imm16Bytes (op : TwoOp) (d : Reg16) (imm : Word) (rest : List Byte) :
    decode (imm16Bytes op d.num imm ++ rest) = .done (.two16 op (.regImm d imm)) := by
  have hd : (BitVec.ofNat 3 d.num).toNat = d.num := Nat.mod_eq_of_lt d.num_lt
  have h := decode_opcode (.imm16 op (BitVec.ofNat 3 d.num)) (loByte imm :: hiByte imm :: rest)
  rw [Opcode.byte, hd] at h
  exact h.trans (by simp [Opcode.decodeTail, decodeImm16])

theorem decode_encode_two16 (op : TwoOp) (f : Form16) (rest : List Byte) :
    decode (encode (.two16 op f) ++ rest) = if f.wf then .done (.two16 op f) else .reserved .baseField := by
  have hfirst := decode_opcode (.g2 op true)
  cases f with
  | regReg d r =>
    obtain ⟨hm, hr, hb⟩ := modeByte_fields (m := 3) (by decide) d.num_lt r.num_lt
    rw [encode_two16_regReg]
    refine (hfirst _).trans ?_
    simp [Opcode.decodeTail, decodeG2, Form16.wf, hm, hr, hb]
  | regMem d b =>
    obtain ⟨hm, hr, hb⟩ := modeByte_fields (m := 0) (by decide) d.num_lt b.num_lt
    rw [encode_two16_regMem]
    refine (hfirst _).trans ?_
    cases h : b.isBase <;> simp [Opcode.decodeTail, decodeG2, Form16.wf, hm, hr, hb, h]
  | memReg b r =>
    obtain ⟨hm, hr, hb⟩ := modeByte_fields (m := 1) (by decide) r.num_lt b.num_lt
    rw [encode_two16_memReg]
    refine (hfirst _).trans ?_
    cases h : b.isBase <;> simp [Opcode.decodeTail, decodeG2, Form16.wf, hm, hr, hb, h]
  | regImm d imm =>
    rw [encode_two16_regImm, decode_imm16Bytes]
    rfl

theorem decode_directBytes (s w : Bool) {rrr : Nat} (hr : rrr < 8) (a : Word) (rest : List Byte) :
    decode (directBytes s.toNat w.toNat rrr a ++ rest) =
      decodeDirect s w (BitVec.ofNat 3 rrr) (loByte a :: hiByte a :: rest) := by
  have hrrr : (BitVec.ofNat 3 rrr).toNat = rrr := Nat.mod_eq_of_lt hr
  have h := decode_opcode (.direct s w (BitVec.ofNat 3 rrr)) (loByte a :: hiByte a :: rest)
  rw [Opcode.byte, hrrr] at h
  exact h

theorem decode_unaryBytes (op : UnaryOp) (w : Bool) {rrr : Nat} (hr : rrr < 8) (rest : List Byte) :
    decode (unaryBytes op w.toNat rrr ++ rest) =
      .done (if w then .unary16 op (Reg16.ofField (BitVec.ofNat 3 rrr))
        else .unary8 op (Reg8.ofField (BitVec.ofNat 3 rrr))) := by
  obtain ⟨hm, hu, hb⟩ := modeByte_fields (m := 3) (by decide) op.num_lt hr
  refine (decode_opcode (.unary w) _).trans ?_
  have hop : op.num % 8 = op.num := Nat.mod_eq_of_lt op.num_lt
  simp [Opcode.decodeTail, decodeUnary, hm, hu, hb, hop, UnaryOp.ofNum_num]

/-- The count field of a shift (R71). -/
def ShiftCount.cc : ShiftCount → Fin 4
  | .one => 0
  | .cl => 1
  | .imm8 _ => 2

/-- The bytes a shift's count adds to the two of its operation and register (R71). -/
def ShiftCount.extra : ShiftCount → List Byte
  | .one => []
  | .cl => []
  | .imm8 n => [n]

theorem shiftCode_eq (w sss r : Nat) (c : ShiftCount) :
    shiftCode w sss r c = BitVec.ofNat 8 (0x32 + w) :: modeByte c.cc sss r :: c.extra := by
  cases c with
  | one => rw [ShiftCount.cc, modeByte, Fin.val_zero, Nat.mul_zero, Nat.zero_add]; rfl
  | cl | imm8 => rfl

theorem decode_shiftCode (op : ShiftOp) (w : Bool) {rrr : Nat} (hr : rrr < 8) (c : ShiftCount) (rest : List Byte) :
    decode (shiftCode w.toNat op.num rrr c ++ rest) =
      .done (if w then .shift16 op (Reg16.ofField (BitVec.ofNat 3 rrr)) c
        else .shift8 op (Reg8.ofField (BitVec.ofNat 3 rrr)) c) := by
  obtain ⟨hm, hs, hb⟩ := modeByte_fields c.cc.isLt op.num_lt hr
  have hop : op.num % 8 = op.num := Nat.mod_eq_of_lt op.num_lt
  rw [shiftCode_eq]
  refine (decode_opcode (.shift w) _).trans ?_
  generalize modeByte c.cc op.num rrr = b2 at hm hs hb ⊢
  cases c <;> rw [ShiftCount.cc] at hm <;>
    simp [Opcode.decodeTail, decodeShift, ShiftCount.extra, hm, hs, hb, hop, ShiftOp.ofNum_num]

/-- The decoder on an encoding, whatever follows it: the instruction, or the refusal of its base field. -/
theorem decode_encode (i : Instr) (rest : List Byte) :
    decode (encode i ++ rest) = if i.wf then .done i else .reserved .baseField := by
  refine View.forall_instr (P := fun i => decode (encode i ++ rest) = if i.wf then .done i else .reserved .baseField)
    (fun v => ?_) i
  cases v with
  | two8 op f => rw [View.instr, Instr.wf_two8, decode_encode_two8]
  | two16 op f => rw [View.instr, Instr.wf_two16, decode_encode_two16]
  | load8 d a =>
    exact (decode_directBytes false false d.num_lt a rest).trans (by simp [decodeDirect, View.instr, Instr.wf])
  | load16 d a =>
    exact (decode_directBytes false true d.num_lt a rest).trans (by simp [decodeDirect, View.instr, Instr.wf])
  | store8 a r =>
    exact (decode_directBytes true false r.num_lt a rest).trans (by simp [decodeDirect, View.instr, Instr.wf])
  | store16 a r =>
    exact (decode_directBytes true true r.num_lt a rest).trans (by simp [decodeDirect, View.instr, Instr.wf])
  | unary8 op r =>
    rw [View.instr, Instr.wf_unary8, encode_unary8]
    exact (decode_unaryBytes op false r.num_lt rest).trans (by simp)
  | unary16 op r =>
    rw [View.instr, Instr.wf_unary16, encode_unary16]
    exact (decode_unaryBytes op true r.num_lt rest).trans (by simp)
  | shift8 op r c =>
    rw [View.instr, Instr.wf_shift8, encode_shift8]
    exact (decode_shiftCode op false r.num_lt c rest).trans (by simp)
  | shift16 op r c =>
    rw [View.instr, Instr.wf_shift16, encode_shift16]
    exact (decode_shiftCode op true r.num_lt c rest).trans (by simp)
  | jump op rel =>
    rw [View.instr, Instr.wf_jump, encode_jump]
    exact decode_opcode (.jump op) (rel :: rest)
  | hlt => rfl

theorem decode_encode_append {i : Instr} (h : i.wf = true) (rest : List Byte) : decode (encode i ++ rest) = .done i :=
  (decode_encode i rest).trans (if_pos h)

/-- Settles O1: both clauses are `decode_encode`. -/
theorem decodeOfEncodeIsTheInstruction : Obligations.DecodeOfEncodeIsTheInstruction := by
  refine fun i rest => ⟨fun h => decode_encode_append h rest, fun h => ?_⟩
  rw [decode_encode, h]
  rfl

/-! ### Encoding what was decoded -/

/-- The bytes `bs` begin with the encoding of `i`, which is well formed. -/
def BeginsWith (bs : List Byte) (i : Instr) : Prop := i.wf = true ∧ ∃ rest, bs = encode i ++ rest

theorem decodeG2_done {op : TwoOp} {w : Bool} {bs : List Byte} {i : Instr} (h : decodeG2 op w bs = .done i) :
    BeginsWith ((Opcode.g2 op w).byte :: bs) i := by
  cases bs with
  | nil => cases h
  | cons b2 rest =>
    simp only [decodeG2] at h
    split at h
    next hm =>
      have hb2 : modeByte 0 _ _ = b2 := modeByte_of_fields hm
      split at h
      next hbase =>
        cases w <;> cases h
        · exact ⟨(Instr.wf_two8 ..).trans hbase, rest, by simp [encode_two8, form8Code, Opcode.byte, hb2]⟩
        · exact ⟨(Instr.wf_two16 ..).trans hbase, rest, by simp [encode_two16_regMem, Opcode.byte, hb2]⟩
      next => cases h
    next hm =>
      have hb2 : modeByte 1 _ _ = b2 := modeByte_of_fields hm
      split at h
      next hbase =>
        cases w <;> cases h
        · exact ⟨(Instr.wf_two8 ..).trans hbase, rest, by simp [encode_two8, form8Code, Opcode.byte, hb2]⟩
        · exact ⟨(Instr.wf_two16 ..).trans hbase, rest, by simp [encode_two16_memReg, Opcode.byte, hb2]⟩
      next => cases h
    next hm =>
      have hb2 : modeByte 2 _ _ = b2 := modeByte_of_fields hm
      split at h
      next => cases h
      next himm =>
        obtain ⟨hw, hlow⟩ := not_or.mp himm
        cases rest with
        | nil => cases h
        | cons b3 rest =>
          cases h
          rw [not_not.mp hlow] at hb2
          rw [Bool.not_eq_true] at hw
          exact ⟨Instr.wf_two8 .., rest, by simpa [encode_two8, form8Code, Opcode.byte, hw] using hb2.symm⟩
    next hm =>
      have hb2 : modeByte 3 _ _ = b2 := modeByte_of_fields hm
      cases w <;> cases h
      · exact ⟨Instr.wf_two8 .., rest, by simp [encode_two8, form8Code, Opcode.byte, hb2]⟩
      · exact ⟨Instr.wf_two16 .., rest, by simp [encode_two16_regReg, Opcode.byte, hb2]⟩

theorem decodeUnary_done {w : Bool} {bs : List Byte} {i : Instr} (h : decodeUnary w bs = .done i) :
    BeginsWith ((Opcode.unary w).byte :: bs) i := by
  cases bs with
  | nil => cases h
  | cons b2 rest =>
    simp only [decodeUnary] at h
    split at h
    next => cases h
    next hm =>
      have hb2 : modeByte 3 _ _ = b2 := modeByte_of_fields (congrArg BitVec.toFin (not_not.mp hm))
      split at h
      next => cases h
      next op hop =>
        rw [← UnaryOp.num_of_ofNum hop] at hb2
        cases w <;> cases h
        · exact ⟨Instr.wf_unary8 .., rest, by simp [encode_unary8, unaryBytes, Opcode.byte, hb2]⟩
        · exact ⟨Instr.wf_unary16 .., rest, by simp [encode_unary16, unaryBytes, Opcode.byte, hb2]⟩

/-- A shift whose mode byte holds its count field, operation and register begins with its encoding. -/
theorem beginsWith_shift {w : Bool} {op : ShiftOp} {b2 : Byte} {c : ShiftCount} (rest : List Byte)
    (hm : (modeField b2).toFin = c.cc) (hop : ShiftOp.ofNum (middleField b2).toNat = some op) :
    BeginsWith ((Opcode.shift w).byte :: b2 :: c.extra ++ rest)
      (if w then .shift16 op (Reg16.ofField (lowField b2)) c else .shift8 op (Reg8.ofField (lowField b2)) c) := by
  have hb2 := modeByte_of_fields hm
  rw [← ShiftOp.num_of_ofNum hop] at hb2
  cases w
  · exact ⟨Instr.wf_shift8 .., rest, by simp [encode_shift8, shiftCode_eq, Opcode.byte, hb2]⟩
  · exact ⟨Instr.wf_shift16 .., rest, by simp [encode_shift16, shiftCode_eq, Opcode.byte, hb2]⟩

theorem decodeShift_done {w : Bool} {bs : List Byte} {i : Instr} (h : decodeShift w bs = .done i) :
    BeginsWith ((Opcode.shift w).byte :: bs) i := by
  cases bs with
  | nil => cases h
  | cons b2 rest =>
    simp only [decodeShift] at h
    split at h
    next => cases h
    next hm =>
      split at h
      next => cases h
      next op hop => cases h; exact beginsWith_shift (c := .one) rest hm hop
    next hm =>
      split at h
      next => cases h
      next op hop => cases h; exact beginsWith_shift (c := .cl) rest hm hop
    next hm =>
      split at h
      next => cases h
      next op hop =>
        cases rest with
        | nil => cases h
        | cons b3 rest => cases h; exact beginsWith_shift (c := .imm8 b3) rest hm hop

theorem decodeImm16_done {op : TwoOp} {rrr : BitVec 3} {bs : List Byte} {i : Instr}
    (h : decodeImm16 op rrr bs = .done i) : BeginsWith ((Opcode.imm16 op rrr).byte :: bs) i := by
  match bs with
  | [] => cases h
  | [_] => cases h
  | b2 :: b3 :: rest =>
    cases h
    exact ⟨Instr.wf_two16 .., rest, by simp [encode_two16_regImm, imm16Bytes, Opcode.byte]⟩

theorem decodeDirect_done {s w : Bool} {rrr : BitVec 3} {bs : List Byte} {i : Instr}
    (h : decodeDirect s w rrr bs = .done i) : BeginsWith ((Opcode.direct s w rrr).byte :: bs) i := by
  match bs with
  | [] => cases h
  | [_] => cases h
  | b2 :: b3 :: rest =>
    cases s <;> cases w <;> cases h <;> exact ⟨rfl, rest, by simp [encode, directBytes, Opcode.byte]⟩

theorem decodeJump_done {op : JumpOp} {bs : List Byte} {i : Instr} (h : decodeJump op bs = .done i) :
    BeginsWith ((Opcode.jump op).byte :: bs) i := by
  cases bs with
  | nil => cases h
  | cons rel rest =>
    cases h
    exact ⟨Instr.wf_jump .., rest, by rw [encode_jump]; rfl⟩

/-- In every group, the bytes an instruction was decoded from begin with its encoding. -/
theorem Opcode.beginsWith_of_done {o : Opcode} {bs : List Byte} {i : Instr} (h : o.decodeTail bs = .done i) :
    BeginsWith (o.byte :: bs) i := by
  cases o with
  | g2 op w => exact decodeG2_done h
  | unary w => exact decodeUnary_done h
  | shift w => exact decodeShift_done h
  | imm16 op rrr => exact decodeImm16_done h
  | direct s w rrr => exact decodeDirect_done h
  | jump op => exact decodeJump_done h
  | hlt => cases h; exact ⟨rfl, bs, rfl⟩

/-- Settles O2: the first byte is an opcode, and each group begins with the encoding. -/
theorem decodedBytesAreTheEncoding : Obligations.DecodedBytesAreTheEncoding := by
  intro bytes i h
  cases bytes with
  | nil => cases h
  | cons b1 rest =>
    obtain ⟨o, rfl⟩ := exists_opcode h
    exact Opcode.beginsWith_of_done ((decode_opcode o rest).symm.trans h)

/-! ### The opcode table (R86) -/

/-- A number under a mask of `j` bits from bit `k` up is the pattern that agrees with it in those bits. -/
theorem land_highMask {x p m : Nat} (k j : Nat) (hm : m = 2 ^ k * (2 ^ j - 1)) (hp : 2 ^ k * (p / 2 ^ k) = p)
    (hx : x / 2 ^ k = p / 2 ^ k) (hlt : x / 2 ^ k < 2 ^ j) : x &&& m = p := by
  rw [← Nat.div_add_mod (x &&& m) (2 ^ k), Nat.and_div_two_pow, Nat.and_mod_two_pow, hm,
    Nat.mul_div_cancel_left _ (Nat.two_pow_pos k), Nat.mul_mod_right, Nat.and_zero, Nat.add_zero,
    Nat.and_two_pow_sub_one_eq_mod, Nat.mod_eq_of_lt hlt, hx, hp]

/-- The row's length is that of the bytes, and their first two select it (R86). -/
def MatchesRow (bytes : List Byte) (row : OpcodeRow) : Prop :=
  bytes.length = row.length ∧
  ((bytes.headD 0).toNat * 256 + (bytes.tail.headD 0).toNat) &&& row.mask = row.pattern

theorem MatchesRow.of_row_eq {bytes : List Byte} {row row' : OpcodeRow} (h : MatchesRow bytes row) (e : row' = row) :
    MatchesRow bytes row' := e ▸ h

theorem g2Byte_toNat (op : TwoOp) (w : Bool) : (g2Byte op w.toNat).toNat = 0x10 + 2 * op.num + w.toNat := by
  cases op <;> cases w <;> rfl

/-- A row of group G2 fixes the ten bits of the first byte and the mode (R67). -/
theorem g2_matchesRow (op : TwoOp) (w : Bool) {m r b : Nat} (hm : m < 4) (hr : r < 8) (hb : b < 8) :
    MatchesRow [g2Byte op w.toNat, modeByte m r b] ⟨(0x10 + 2 * op.num + w.toNat) * 256 + 64 * m, 0xFFC0, 2⟩ := by
  have hop := op.num_le
  have hw := w.toNat_le
  refine ⟨rfl, ?_⟩
  simp only [List.headD_cons, List.tail_cons, g2Byte_toNat, modeByte_toNat hm hr hb]
  exact land_highMask 6 10 rfl (by omega) (by omega) (by omega)

/-- The row of an imm8 form also fixes the three low bits, to 0 (R67). -/
theorem g2Imm_matchesRow (op : TwoOp) {r : Nat} (hr : r < 8) (imm : Byte) :
    MatchesRow [g2Byte op 0, modeByte 2 r 0, imm] ⟨(0x10 + 2 * op.num) * 256 + 128, 0xFFC7, 3⟩ := by
  have hop := op.num_le
  refine ⟨rfl, ?_⟩
  have hg : (g2Byte op 0).toNat = 0x10 + 2 * op.num := g2Byte_toNat op false
  simp only [List.headD_cons, List.tail_cons, hg, modeByte_toNat (m := 2) (by decide) hr (b := 0) (by decide)]
  have hmask : 0xFFC7 = 0xFFC0 ||| 2 ^ 3 - 1 := rfl
  rw [hmask, Nat.and_or_distrib_left, Nat.and_two_pow_sub_one_eq_mod,
    land_highMask (m := 0xFFC0) (p := (0x10 + 2 * op.num) * 256 + 128) 6 10 rfl (by omega) (by omega) (by omega)]
  have hlow : ((0x10 + 2 * op.num) * 256 + (64 * 2 + 8 * r + 0)) % 2 ^ 3 = 0 := by omega
  rw [hlow, Nat.or_zero]

/-- A row whose register stands in the first byte fixes five bits (R68, R69). -/
theorem firstByte_matchesRow {n r : Nat} (hn : n < 32) (hr : r < 8) (b2 b3 : Byte) :
    MatchesRow [BitVec.ofNat 8 (8 * n + r), b2, b3] ⟨8 * n * 256, 0xF800, 3⟩ := by
  have hb2 := b2.isLt
  have hb1 : (BitVec.ofNat 8 (8 * n + r)).toNat = 8 * n + r := Nat.mod_eq_of_lt (by omega)
  refine ⟨rfl, ?_⟩
  simp only [List.headD_cons, List.tail_cons, hb1]
  exact land_highMask 11 5 rfl (by omega) (by omega) (by omega)

/-- A row of the unary or shift group fixes all bits but the register's three (R70, R71). -/
theorem register_matchesRow {b1 : Byte} {m op r : Nat} (hm : m < 4) (hop : op < 8) (hr : r < 8) (rest : List Byte) :
    MatchesRow (b1 :: modeByte m op r :: rest) ⟨b1.toNat * 256 + 64 * m + 8 * op, 0xFFF8, rest.length + 2⟩ := by
  have hb1 := b1.isLt
  refine ⟨rfl, ?_⟩
  simp only [List.headD_cons, List.tail_cons, modeByte_toNat hm hop hr]
  exact land_highMask 3 13 rfl (by omega) (by omega) (by omega)

/-- A jump's row fixes the first byte (R72). -/
theorem jump_matchesRow (op : JumpOp) (rel : Byte) : MatchesRow (jumpBytes op rel) ⟨op.num * 256, 0xFF00, 2⟩ := by
  have hrel := rel.isLt
  have hop : op.num < 256 := by cases op <;> decide
  have hb1 : (BitVec.ofNat 8 op.num).toNat = op.num := Nat.mod_eq_of_lt hop
  refine ⟨rfl, ?_⟩
  simp only [jumpBytes, List.headD_cons, List.tail_cons, hb1]
  exact land_highMask 8 8 rfl (by omega) (by omega) (by omega)

theorem two8_matchesRow (op : TwoOp) (f : Form8) : MatchesRow (encode (.two8 op f)) (Instr.two8 op f).opcodeRow := by
  rw [encode_two8]
  cases f with
  | regReg d r => exact (g2_matchesRow op false (m := 3) (by decide) d.num_lt r.num_lt).of_row_eq (by cases op <;> rfl)
  | regMem d b => exact (g2_matchesRow op false (m := 0) (by decide) d.num_lt b.num_lt).of_row_eq (by cases op <;> rfl)
  | memReg b r => exact (g2_matchesRow op false (m := 1) (by decide) r.num_lt b.num_lt).of_row_eq (by cases op <;> rfl)
  | regImm d imm => exact (g2Imm_matchesRow op d.num_lt imm).of_row_eq (by cases op <;> rfl)

theorem two16_matchesRow (op : TwoOp) (f : Form16) :
    MatchesRow (encode (.two16 op f)) (Instr.two16 op f).opcodeRow := by
  cases f with
  | regReg d r =>
    rw [encode_two16_regReg]
    exact (g2_matchesRow op true (m := 3) (by decide) d.num_lt r.num_lt).of_row_eq (by cases op <;> rfl)
  | regMem d b =>
    rw [encode_two16_regMem]
    exact (g2_matchesRow op true (m := 0) (by decide) d.num_lt b.num_lt).of_row_eq (by cases op <;> rfl)
  | memReg b r =>
    rw [encode_two16_memReg]
    exact (g2_matchesRow op true (m := 1) (by decide) r.num_lt b.num_lt).of_row_eq (by cases op <;> rfl)
  | regImm d imm =>
    rw [encode_two16_regImm]
    have hop := op.num_le
    rw [imm16Bytes, show 0x40 + 8 * op.num = 8 * (8 + op.num) from (Nat.mul_add 8 8 op.num).symm]
    exact (firstByte_matchesRow (n := 8 + op.num) (by omega) d.num_lt (loByte imm) (hiByte imm)).of_row_eq
      (by cases op <;> rfl)

/-- Settles O4: a shape's row is the one its group's lemma gives the bytes of the shape. -/
theorem encodingsMatchTheOpcodeTable : Obligations.EncodingsMatchTheOpcodeTable := by
  refine fun i => View.forall_instr (P := fun i => MatchesRow (encode i) i.opcodeRow) (fun v => ?_) i
  cases v with
  | two8 op f => exact two8_matchesRow op f
  | two16 op f => exact two16_matchesRow op f
  | load8 d a => exact firstByte_matchesRow (n := 20) (by decide) d.num_lt (loByte a) (hiByte a)
  | load16 d a => exact firstByte_matchesRow (n := 21) (by decide) d.num_lt (loByte a) (hiByte a)
  | store8 a r => exact firstByte_matchesRow (n := 22) (by decide) r.num_lt (loByte a) (hiByte a)
  | store16 a r => exact firstByte_matchesRow (n := 23) (by decide) r.num_lt (loByte a) (hiByte a)
  | unary8 op r =>
    rw [View.instr, encode_unary8]
    exact (register_matchesRow (b1 := 0x30) (m := 3) (by decide) op.num_lt r.num_lt []).of_row_eq (by cases op <;> rfl)
  | unary16 op r =>
    rw [View.instr, encode_unary16]
    exact (register_matchesRow (b1 := 0x31) (m := 3) (by decide) op.num_lt r.num_lt []).of_row_eq (by cases op <;> rfl)
  | shift8 op r c =>
    rw [View.instr, encode_shift8, shiftCode_eq]
    exact (register_matchesRow (b1 := 0x32) c.cc.isLt op.num_lt r.num_lt c.extra).of_row_eq
      (by cases op <;> cases c <;> rfl)
  | shift16 op r c =>
    rw [View.instr, encode_shift16, shiftCode_eq]
    exact (register_matchesRow (b1 := 0x33) c.cc.isLt op.num_lt r.num_lt c.extra).of_row_eq
      (by cases op <;> cases c <;> rfl)
  | jump op rel =>
    rw [View.instr, encode_jump]
    exact (jump_matchesRow op rel).of_row_eq (by cases op <;> rfl)
  | hlt => exact ⟨rfl, rfl⟩

/-! ### Sample words -/

/-- Settles O6: each word is closed, and the decoder computes. -/
theorem sampleWordsDecode : Obligations.SampleWordsDecode :=
  ⟨rfl, rfl, rfl, rfl, rfl, rfl, rfl, rfl, rfl, rfl⟩

end Sys2Proof

/-! ## The step (40_execution_and_operands.md, 60_exceptions.md): the fetch, its faults, and the invariant -/

namespace Sys2Proof.Machine

/-! ### The fetch (R90 phases P0 to P2) -/

/-- The fetch takes the bytes it asks for, one after the other, as long as the decoder asks. -/
theorem fetchFrom_append {s : State} (more : List Byte) :
    ∀ (n : Nat) (got : List Byte), decode (got ++ more) = .more → s.holdsBytes s.ip.toNat (got ++ more) →
      fetchFrom s (n + more.length) got = fetchFrom s n (got ++ more) := by
  induction more with
  | nil => intro n got _ _; rw [List.append_nil]; rfl
  | cons b more ih =>
    intro n got hm hb
    obtain ⟨hlt, hbyte⟩ := hb got.length (by simp)
    have hbyte : s.byteAt (s.ip.toNat + got.length) = b := by simpa using hbyte
    rw [List.append_cons] at hm hb ⊢
    have hg : decode (got ++ [b]) = .more := by
      by_contra hg
      exact hg ((decode_append more hg).symm.trans hm)
    rw [← ih n _ hm hb, List.length_cons, ← Nat.add_assoc]
    simp only [fetchFrom, State.memRead8_lt hlt, hbyte, hg]

/-- A byte the decoder asks for that has no cell raises AddressError at its address (R205 checks 2, 4 and 6). -/
theorem fetch_missing {s : State} {bs : List Byte} (hs : s.startAllowed = true) (hd : decode bs = .more)
    (hl : bs.length < 3) (hb : s.holdsBytes s.ip.toNat bs) (hm : s.config.memSize ≤ s.ip.toNat + bs.length) :
    fetch s = .error (outOfRange (s.ip.toNat + bs.length)) := by
  obtain ⟨n, hn⟩ : ∃ n, 3 = n + 1 + bs.length := ⟨2 - bs.length, by omega⟩
  rw [fetch, if_pos hs, hn, fetchFrom_append bs (n + 1) [] hd hb]
  simp only [fetchFrom, List.nil_append, State.memRead8_error (State.badCell_of_le 1 hm)]

theorem State.holdsBytes_nil (s : State) (a : Nat) : s.holdsBytes a [] := fun _ h => absurd h (Nat.not_lt_zero _)

/-- Settles O9: each check is `step_of_fetch_error` on what the fetch answers: `fetch_missing` where a byte has no cell,
`step_reserved` where the bytes are reserved. -/
theorem fetchFaultsComeInOrder : Obligations.FetchFaultsComeInOrder := by
  refine fun s hc => ⟨fun hs => ?_, fun hs hm => ?_, fun b1 hs hb => ⟨fun why hr => ?_, fun hd hm => ?_⟩,
    fun b1 b2 hs hd1 hb => ⟨fun why hr => ?_, fun hd hm => ?_⟩⟩
  · exact step_of_fetch_error hc (if_neg (Bool.eq_false_iff.mp hs))
  · exact step_of_fetch_error hc (fetch_missing hs (bs := []) rfl (by decide) (s.holdsBytes_nil _) hm)
  · exact step_reserved (bs := [b1]) hc hs (by simp) hb ⟨why, hr⟩
  · exact step_of_fetch_error hc (fetch_missing (bs := [b1]) hs hd (by simp) hb hm)
  · exact step_reserved (bs := [b1, b2]) hc hs (by simp) hb ⟨why, hr⟩
  · exact step_of_fetch_error hc (fetch_missing (bs := [b1, b2]) hs hd (by simp) hb hm)

/-- A step executes the instruction whose bytes stand at IP (R90). -/
theorem step_of_holdsBytes {s : State} {bs : List Byte} {i : Instr} (hc : s.run.canStep = true)
    (hs : s.startAllowed = true) (hd : decode bs = .done i) (hl : bs.length ≤ 3) (hb : s.holdsBytes s.ip.toNat bs) :
    step s = exec i s :=
  step_of_fetch_ok hc (fetch_done hs hd hl hb)

/-- Settles O7: `step_of_holdsBytes`, an instruction having at most three bytes. -/
theorem stepExecutesTheDecodedInstruction : Obligations.StepExecutesTheDecodedInstruction :=
  fun _ _ i hc hs hd hl hb => step_of_holdsBytes hc hs hd (hl.trans_le (Instr.length_le_three i)) hb

/-! ### Bytes placed at IP (R55) -/

@[simp] theorem State.placeBytes_ip (s : State) (a : Nat) (bs : List Byte) : (s.placeBytes a bs).ip = s.ip := by
  rw [placeBytes_eq]

@[simp] theorem State.placeBytes_startAllowed (s : State) (a : Nat) (bs : List Byte) :
    (s.placeBytes a bs).startAllowed = s.startAllowed := by
  simp only [startAllowed, placeBytes_config, placeBytes_ip]

theorem State.placeBytes_holdsBytes {s : State} {a : Nat} {bs : List Byte} (hm : Memory.wf s.mem)
    (h : a + bs.length ≤ s.config.memSize) : (s.placeBytes a bs).holdsBytes a bs := by
  intro k hk
  refine ⟨?_, s.byteAt_placeBytes_inside a k bs hm hk (by omega)⟩
  rw [placeBytes_config]
  omega

/-- Bytes placed at IP, where the core may start, are the instruction the next step executes. -/
theorem step_placeBytes {s : State} {bs : List Byte} {i : Instr} (hm : Memory.wf s.mem) (hc : s.run.canStep = true)
    (hs : s.startAllowed = true) (hd : decode bs = .done i) (hl : bs.length ≤ 3)
    (hb : s.ip.toNat + bs.length ≤ s.config.memSize) :
    step (s.placeBytes s.ip.toNat bs) = exec i (s.placeBytes s.ip.toNat bs) := by
  refine step_of_holdsBytes (bs := bs) (by simpa using hc) (by simpa using hs) hd hl ?_
  rw [State.placeBytes_ip]
  exact State.placeBytes_holdsBytes hm hb

theorem State.writeMemory_ok_range {s t : State} {a : Nat} {bs : List Byte} (h : s.writeMemory a bs = .ok t) :
    a + bs.length ≤ s.config.memSize := by
  by_contra hlt
  rw [writeMemory_of_lt (Nat.not_le.mp hlt)] at h
  cases h

/-- Settles O20: WriteMemory places the encoding at IP, and decoding it gives the instruction back. -/
theorem nextFetchSeesTheHostsWrite : Obligations.NextFetchSeesTheHostsWrite := by
  intro s t i hm hc hs hwf hw
  have hd : decode (encode i) = .done i := by simpa using decode_encode_append hwf []
  have hl : (encode i).length ≤ 3 := (length_encode i).trans_le (Instr.length_le_three i)
  rw [State.writeMemory_ok hw]
  exact step_placeBytes hm hc hs hd hl (State.writeMemory_ok_range hw)

theorem decode_of_decodeTableWord {nbits w : Nat} {i : Instr} (h : decodeTableWord nbits w = some i) :
    decode (tableBytes nbits w) = .done i := by
  simp only [decodeTableWord] at h
  split at h
  next hd => rw [hd, Option.some.inj h]
  all_goals cases h

/-- Settles O21: `withFetchWord` places the three bytes of the table word at IP of a state that may step and start. -/
theorem placedTableWordRunsNext : Obligations.PlacedTableWordRunsNext := by
  intro s nbits w i hm hip hd
  have hmem : s.wake.allowStart.mem = s.mem := (State.allowStart_mem _).trans s.wake_mem
  have hpc : s.wake.allowStart.ip = s.ip := (State.allowStart_ip _).trans s.wake_ip
  have hsize : s.wake.allowStart.config.memSize = s.config.memSize := by
    rw [State.allowStart_memSize, State.wake_config]
  have hrun : s.wake.allowStart.run.canStep = true := by
    rw [State.allowStart_run]
    exact s.wake_canStep
  rw [State.withFetchWord, ← hpc]
  refine step_placeBytes (hmem ▸ hm) hrun (State.allowStart_startAllowed _) (decode_of_decodeTableWord hd)
    (Nat.le_refl 3) ?_
  rw [hpc, hsize]
  exact hip

/-! ### The invariant (R23, R40, R3) -/

theorem State.wf_raise {s : State} (h : s.wf) (f : FaultRecord) : (s.raise f).wf := by
  obtain ⟨hmem, hcells, -, hconfig⟩ := h
  exact ⟨hmem, hcells, iff_of_true rfl rfl, hconfig⟩

/-- A core that may step holds no fault, so an instruction that completes leaves none. -/
theorem State.wf_of_completes {s t : State} (h : s.wf) (hc : s.run.canStep = true) (c : Completes s t) : t.wf := by
  obtain ⟨hmem, hcells, hfault, hconfig⟩ := h
  have hrun : s.run ≠ .faulted := by
    intro hr
    rw [hr] at hc
    cases hc
  refine ⟨c.mem_wf hmem, fun x hx => ?_, ?_, c.config ▸ hconfig⟩
  · rw [c.config]
    exact (c.mem_cells x hx).elim (hcells x) id
  · rw [c.fault]
    exact iff_of_false (mt hfault.mp hrun) c.run

/-- Settles O11: a step raises a fault or executes, and an instruction raises a fault or completes; `State.raise` and
`Completes` each keep the invariant. -/
theorem everyStepKeepsTheInvariant : Obligations.EveryStepKeepsTheInvariant := by
  intro s t hwf h
  obtain ⟨hc, ⟨f, -, rfl⟩ | ⟨i, -, hexec⟩⟩ := step_cases h
  · exact State.wf_raise hwf f
  · rcases exec_next_cases hexec with ⟨f, rfl⟩ | completed
    · exact State.wf_raise hwf f
    · exact State.wf_of_completes hwf hc completed

theorem Memory.wf_nil : Memory.wf [] := ⟨.nil, nofun⟩

theorem State.wf_powerOn {c : Config} (h : c.wf) : (State.powerOn c).wf :=
  ⟨Memory.wf_nil, nofun, iff_of_false nofun nofun, h⟩

theorem Config.wf_standard : Config.standard.wf := ⟨by decide, .nil⟩

/-- Settles O12: power-on has the invariant, and the reset state is power-on with the default parameters. -/
theorem resetHasTheInvariant : Obligations.ResetHasTheInvariant :=
  ⟨State.wf_powerOn Config.wf_standard, fun _ => State.wf_powerOn⟩

/-! ### LoadEntry (R232) -/

/-- Settles O16: `State.loadEntry` writes the four fields, and CODE_STARTS where a value of it is supplied. -/
theorem loadEntrySetsTheCursor : Obligations.LoadEntrySetsTheCursor := fun _ _ => ⟨rfl, fun _ => rfl⟩

end Sys2Proof.Machine

/-! ## Memory (20_memory.md): what a write stores and the fault it raises -/

namespace Sys2Proof.Machine

/-- Settles O30: a missing cell is an error of the write lemmas; where the cells exist the write is one or two
`State.setByte`, the low byte first. -/
theorem memWriteStoresTheWholeOperandOrNothing : Obligations.MemWriteStoresTheWholeOperandOrNothing := by
  refine fun s a b v hm => ⟨fun h => ⟨?_, ?_⟩, fun h => ?_, fun h h1 => ?_, fun h => ?_⟩
  · exact State.memWrite8_error (State.badCell_of_le 1 h)
  · exact State.memWrite16_error (State.badCell_of_le 2 h)
  · exact ⟨_, State.memWrite8_ok (State.badCell_one_of_lt h), rfl, Memory.write_wf _ _ _ hm,
      s.byteAt_setByte_self a b hm, fun x hx => s.byteAt_setByte_ne a x b hx⟩
  · exact State.memWrite16_error (State.badCell_two_of_le_succ h h1)
  · have hlo : Memory.wf (s.setByte a (loByte v)).mem := Memory.write_wf _ _ _ hm
    refine ⟨_, State.memWrite16_ok (State.badCell_two_of_succ_lt h), rfl, Memory.write_wf _ _ _ hlo, ?_, ?_,
      fun x hx hx1 => ?_⟩
    · rw [State.byteAt_setByte_ne _ _ _ _ (by omega), State.byteAt_setByte_self _ _ _ hm, loByte_toNat]
    · rw [State.byteAt_setByte_self _ _ _ hlo, hiByte_toNat]
    · rw [State.byteAt_setByte_ne _ _ _ _ hx1, State.byteAt_setByte_ne _ _ _ _ hx]

end Sys2Proof.Machine

/-! ## Properties of the arithmetic (42_add_sub.md section 4, 43_mul_div.md, 44_logic_shift.md section 2) -/

namespace Sys2Proof.Machine

/-! ### Subtraction is addition of the complement (R131) -/

theorem subW_result_eq_addW_not {w : Nat} (a b : BitVec w) (c : Bool) :
    (subW a b c).result = (addW a (~~~b) (!c)).result := by
  have hb := b.isLt
  have hnot := BitVec.toNat_not (x := b)
  have hc : c.toNat + (!c).toNat = 1 := by cases c <;> rfl
  have hsub := subResult_cases a.isLt b.isLt c.toNat_le
  have hadd := addResult_cases a.isLt (~~~b).isLt (!c).toNat_le
  apply BitVec.eq_of_toNat_eq
  rw [subW_toNat, addW_toNat]
  omega

theorem subW_cf_eq_not_addW_not {w : Nat} (a b : BitVec w) (c : Bool) :
    (subW a b c).cf = !(addW a (~~~b) (!c)).cf := by
  have hb := b.isLt
  have hnot := BitVec.toNat_not (x := b)
  have hc : c.toNat + (!c).toNat = 1 := by cases c <;> rfl
  simp only [subW, addW, ← decide_not]
  exact decide_eq_decide.mpr (by omega)

/-- The borrow out of bit 3 is the opposite of the carry, where the low digit of the complement is that of the low
digit's complement. -/
theorem subW_af_eq_not_addW_not {w : Nat} (hw : 16 ∣ 2 ^ w) (a b : BitVec w) (c : Bool) :
    (subW a b c).af = !(addW a (~~~b) (!c)).af := by
  have hb := b.isLt
  have hnot := BitVec.toNat_not (x := b)
  have hc : c.toNat + (!c).toNat = 1 := by cases c <;> rfl
  simp only [subW, addW, ← decide_not]
  exact decide_eq_decide.mpr (by omega)

theorem subW_of_eq_addW_not {w : Nat} (hw : 0 < w) (a b : BitVec w) (c : Bool) :
    (subW a b c).of = (addW a (~~~b) (!c)).of := by
  have hmsb : (~~~b).msb = !b.msb := by rw [BitVec.msb_not, decide_eq_true hw, Bool.true_and]
  have hr : (subW a b c).of = ((a.msb != b.msb) && ((subW a b c).result.msb != a.msb)) := rfl
  rw [hr, subW_result_eq_addW_not]
  simp only [addW, hmsb]
  cases a.msb <;> cases b.msb <;> rfl

/-! ### CMP and SUB (R131) -/

theorem View.badCell_two8_eq (op op' : TwoOp) (f : Form8) (s : State) :
    (View.two8 op f).badCell s = (View.two8 op' f).badCell s := by cases f <;> rfl

theorem View.badCell_two16_eq (op op' : TwoOp) (f : Form16) (s : State) :
    (View.two16 op f).badCell s = (View.two16 op' f).badCell s := by cases f <;> rfl

theorem flags_cmp_eq_sub_two8 {s t u : State} {f : Form8} (hcmp : exec (.two8 .cmp f) s = .next t)
    (hsub : exec (.two8 .sub f) s = .next u) : t.flags = u.flags := by
  cases hb : (View.two8 .cmp f).badCell s with
  | none =>
    obtain ⟨hd, hs⟩ := View.badCell_two8_none hb
    rw [exec_two8_cmp, compare8_ok _ hd hs] at hcmp
    rw [exec_two8_sub, twoOp8_ok _ _ hd hs] at hsub
    rw [← next_inj hcmp, ← next_inj hsub]
    rfl
  | some x =>
    rw [exec_two8_badCell hb] at hcmp
    rw [exec_two8_badCell ((View.badCell_two8_eq ..).trans hb)] at hsub
    rw [← next_inj hcmp, ← next_inj hsub]

theorem flags_cmp_eq_sub_two16 {s t u : State} {f : Form16} (hcmp : exec (.two16 .cmp f) s = .next t)
    (hsub : exec (.two16 .sub f) s = .next u) : t.flags = u.flags := by
  cases hb : (View.two16 .cmp f).badCell s with
  | none =>
    obtain ⟨hd, hs⟩ := View.badCell_two16_none hb
    rw [exec_two16_cmp, compare16_ok _ hd hs] at hcmp
    rw [exec_two16_sub, twoOp16_ok _ _ hd hs] at hsub
    rw [← next_inj hcmp, ← next_inj hsub]
    rfl
  | some x =>
    rw [exec_two16_badCell hb] at hcmp
    rw [exec_two16_badCell ((View.badCell_two16_eq ..).trans hb)] at hsub
    rw [← next_inj hcmp, ← next_inj hsub]

/-! ### One-register operations that undo each other (R131) -/

theorem addW_false_result {w : Nat} (a b : BitVec w) : (addW a b false).result = a + b := by
  apply BitVec.eq_of_toNat_eq
  rw [addW_toNat, addResult, BitVec.toNat_add]
  rfl

theorem subW_false_result {w : Nat} (a b : BitVec w) : (subW a b false).result = a - b := by
  rw [subW_result_eq_addW_not]
  apply BitVec.eq_of_toNat_eq
  rw [addW_toNat, addResult, BitVec.toNat_sub, BitVec.toNat_not]
  congr 1
  have := b.isLt
  simp
  omega

theorem State.setReg8_setReg8 (s : State) (r : Reg8) (v u : Byte) :
    (s.setReg8 r v).setReg8 r u = s.setReg8 r u := by
  rw [setReg8, reg16_setReg8_parent, setReg8]
  cases h : r.isHigh <;> simp [setReg8, setReg16, h]

theorem State.setReg16_setReg16 (s : State) (r : Reg16) (v u : Word) :
    (s.setReg16 r v).setReg16 r u = s.setReg16 r u := by
  simp [setReg16]

/-- An operation that takes a register's value back undoes the operation before it. -/
theorem unaryOp8_undo {f g : Byte → Flags → AluOut 8} (h : ∀ x p q, (g (f x p).result q).result = x) (s : State)
    (r : Reg8) : ∃ t u, unaryOp8 f r s = .next t ∧ unaryOp8 g r t = .next u ∧ u.regs = s.regs ∧
      t.flags = (f (s.reg8 r) s.flags).flags ∧ u.flags = (g (t.reg8 r) t.flags).flags := by
  refine ⟨_, _, rfl, rfl, ?_, rfl, rfl⟩
  simp only [State.complete_reg8, State.setFlags_reg8, State.reg8_setReg8_self, h]
  have hback : ((s.setReg8 r (f (s.reg8 r) s.flags).result).setReg8 r (s.reg8 r)).regs = s.regs := by
    rw [State.setReg8_setReg8, State.setReg8_self]
  exact hback

theorem unaryOp16_undo {f g : Word → Flags → AluOut 16} (h : ∀ x p q, (g (f x p).result q).result = x) (s : State)
    (r : Reg16) : ∃ t u, unaryOp16 f r s = .next t ∧ unaryOp16 g r t = .next u ∧ u.regs = s.regs ∧
      t.flags = (f (s.reg16 r) s.flags).flags ∧ u.flags = (g (t.reg16 r) t.flags).flags := by
  refine ⟨_, _, rfl, rfl, ?_, rfl, rfl⟩
  simp only [State.complete_reg16, State.setFlags_reg16, State.setReg16_reg16, Regs.get_set_self, h]
  have hback : ((s.setReg16 r (f (s.reg16 r) s.flags).result).setReg16 r (s.reg16 r)).regs = s.regs := by
    rw [State.setReg16_setReg16, State.setReg16_self]
  exact hback

theorem aluNeg_aluNeg_result {w : Nat} (x : BitVec w) (p q : Flags) : (aluNeg (aluNeg x p).result q).result = x := by
  simp only [aluNeg, subW_false_result]
  simp

theorem aluDec_aluInc_result {w : Nat} (x : BitVec w) (p q : Flags) : (aluDec (aluInc x p).result q).result = x := by
  simp only [aluDec, aluInc, subW_false_result, addW_false_result]
  exact BitVec.add_sub_cancel ..

theorem aluInc_cf {w : Nat} (x : BitVec w) (f : Flags) : (aluInc x f).flags.cf = f.cf := rfl
theorem aluDec_cf {w : Nat} (x : BitVec w) (f : Flags) : (aluDec x f).flags.cf = f.cf := rfl

/-- Settles O34: a difference is the sum with the complement, CMP and SUB compute the same flags, and the one-register
operations named undo each other's results. -/
theorem arithmeticPropertiesHold : Obligations.ArithmeticPropertiesHold := by
  refine ⟨fun w a b c hw => ?_, fun s t u f => flags_cmp_eq_sub_two8, fun s t u f => flags_cmp_eq_sub_two16,
    fun s r => ?_, fun s r => ?_, fun s r => ?_, fun s r => ?_⟩
  · have hdvd : 16 ∣ 2 ^ w := by rcases hw with rfl | rfl <;> decide
    have hnot : BitVec.ofNat w (2 ^ w - 1 - b.toNat) = ~~~b := by
      rw [← BitVec.toNat_not, BitVec.ofNat_toNat, BitVec.setWidth_eq]
    rw [hnot]
    exact ⟨(addW a b c).result.isLt, (subW a b c).result.isLt, subW_result_eq_addW_not a b c,
      subW_cf_eq_not_addW_not a b c, subW_af_eq_not_addW_not hdvd a b c, subW_of_eq_addW_not (by omega) a b c⟩
  · obtain ⟨t, u, ht, hu, hregs, -⟩ := unaryOp8_undo aluNeg_aluNeg_result s r
    exact ⟨t, u, ht, hu, hregs⟩
  · obtain ⟨t, u, ht, hu, hregs, -⟩ := unaryOp16_undo aluNeg_aluNeg_result s r
    exact ⟨t, u, ht, hu, hregs⟩
  · obtain ⟨t, u, ht, hu, hregs, htf, huf⟩ := unaryOp8_undo aluDec_aluInc_result s r
    have htc : t.flags.cf = s.flags.cf := htf ▸ aluInc_cf ..
    exact ⟨t, u, ht, hu, hregs, htc, (huf ▸ aluDec_cf ..).trans htc⟩
  · obtain ⟨t, u, ht, hu, hregs, htf, huf⟩ := unaryOp16_undo aluDec_aluInc_result s r
    have htc : t.flags.cf = s.flags.cf := htf ▸ aluInc_cf ..
    exact ⟨t, u, ht, hu, hregs, htc, (huf ▸ aluDec_cf ..).trans htc⟩

/-! ### DIV after MUL (R142) -/

/-- The upper half of a product by `x` is below `x`. -/
theorem upper_product_lt {B a x : Nat} (ha : a < B) (hx : 0 < x) : a * x / B < x :=
  Nat.div_lt_of_lt_mul (Nat.mul_lt_mul_of_pos_right ha hx)

theorem toNat_pos_of_ne_zero {w : Nat} {x : BitVec w} (h : x ≠ 0) : 0 < x.toNat :=
  Nat.pos_of_ne_zero fun h0 => h ((eq_zero_iff_toNat x).mpr h0)

/-- DIV at W = 16 after MUL by the same register. -/
theorem exec_div_after_mul16 {s : State} {r : Reg16} (ha : r ≠ .ax) (hd : r ≠ .dx) (h0 : s.reg16 r ≠ 0) :
    ∃ t u, exec (.mulR16 r) s = .next t ∧ exec (.divR16 r) t = .next u ∧
      u.run = .running ∧ u.fault = s.fault ∧ u.reg16 .ax = s.reg16 .ax ∧ u.reg16 .dx = 0 := by
  have hx := toNat_pos_of_ne_zero h0
  let t := (mulBy16 (s.reg16 r) s).complete 2
  have hr : t.reg16 r = s.reg16 r := mulBy16_reg16_ne _ s ha hd
  have hdx : (t.reg16 .dx).toNat = (s.reg16 .ax).toNat * (s.reg16 r).toNat / 65536 := mulBy16_dx ..
  have hax : (t.reg16 .ax).toNat = (s.reg16 .ax).toNat * (s.reg16 r).toNat % 65536 := mulBy16_ax ..
  have hprod : (t.reg16 .dx).toNat * 65536 + (t.reg16 .ax).toNat = (s.reg16 .ax).toNat * (s.reg16 r).toNat := by
    rw [hdx, hax]
    exact Nat.div_add_mod' ..
  have hlt : (t.reg16 .dx).toNat < (t.reg16 r).toNat := by
    rw [hdx, hr]
    exact upper_product_lt (s.reg16 .ax).isLt hx
  obtain ⟨u, hu, hstate, hq, hrem, -⟩ := exec_unary16_div_of_upper_lt hlt
  rw [hprod, hr] at hq hrem
  refine ⟨t, u, exec_unary16_mul r s, hu, by rw [hstate], by rw [hstate]; rfl, BitVec.eq_of_toNat_eq ?_,
    BitVec.eq_of_toNat_eq ?_⟩
  · rw [hq, Nat.mul_div_cancel _ hx]
  · rw [hrem, Nat.mul_mod_left]
    rfl

/-- DIV at W = 8 after MUL by the same register. -/
theorem exec_div_after_mul8 {s : State} {r : Reg8} (hl : r ≠ .al) (hh : r ≠ .ah) (h0 : s.reg8 r ≠ 0) :
    ∃ t u, exec (.mulR8 r) s = .next t ∧ exec (.divR8 r) t = .next u ∧
      u.run = .running ∧ u.fault = s.fault ∧ u.reg8 .al = s.reg8 .al ∧ u.reg8 .ah = 0 := by
  have hx := toNat_pos_of_ne_zero h0
  have hparent : r.parent ≠ .ax := by cases r <;> simp_all [Reg8.parent]
  let t := (mulBy8 (s.reg8 r) s).complete 2
  have hr : t.reg8 r = s.reg8 r := (State.reg8_setReg16 ..).trans (if_neg hparent)
  have hax : (t.reg16 .ax).toNat = (s.reg8 .al).toNat * (s.reg8 r).toNat := mulBy8_ax ..
  have hlt : (t.reg8 .ah).toNat < (t.reg8 r).toNat := by
    have hah : (t.reg8 .ah).toNat = (t.reg16 .ax).toNat / 256 := t.reg8_toNat .ah
    rw [hah, hax, hr]
    exact upper_product_lt (s.reg8 .al).isLt hx
  obtain ⟨u, hu, hstate, hq, hrem, -⟩ := exec_unary8_div_of_upper_lt hlt
  rw [hax, hr] at hq hrem
  refine ⟨t, u, exec_unary8_mul r s, hu, by rw [hstate], by rw [hstate]; rfl, BitVec.eq_of_toNat_eq ?_,
    BitVec.eq_of_toNat_eq ?_⟩
  · rw [hq, Nat.mul_div_cancel _ hx]
  · rw [hrem, Nat.mul_mod_left]
    rfl

/-- Settles O48: the product's upper half is below the divisor, so the division completes, and it is exact. -/
theorem divUndoesMul : Obligations.DivUndoesMul :=
  ⟨fun _ _ => exec_div_after_mul16, fun _ _ => exec_div_after_mul8⟩

/-! ### A shift by a count is that many shifts by one (R155) -/

/-- ZF, SF and PF come from the result, CF is given, AF is kept: two shifts that agree in result, CF and AF before leave
the same flags but OF. -/
theorem ofShift_eq_but_of {w : Nat} {f g : Flags} (n m : Nat) {cf cf' : Bool} (o o' p : Bool) {r r' : BitVec w}
    (hr : r = r') (hcf : cf = cf') (haf : f.af = g.af) :
    { f.ofShift n cf o r with of := p } = { g.ofShift m cf' o' r' with of := p } := by
  subst hr hcf
  simp [Flags.ofShift, Flags.setSZP, haf]

/-- The bit a shift left by `n + 2` drops last is the top bit of the operand shifted by `n + 1`. -/
theorem shl_last_bit {w : Nat} (hw : 1 ≤ w) (x : BitVec w) (n : Nat) :
    (if n + 1 + 1 ≤ w then x.getLsbD (w - (n + 1 + 1)) else false) =
      if 1 ≤ w then (x <<< (n + 1)).getLsbD (w - 1) else false := by
  rw [if_pos hw, BitVec.getLsbD_shiftLeft, decide_eq_true (by omega), Bool.true_and, Nat.sub_sub, Nat.add_comm 1]
  by_cases h : n + 1 + 1 ≤ w
  · rw [if_pos h, decide_eq_false (by omega), Bool.not_false, Bool.true_and]
  · rw [if_neg h, decide_eq_true (by omega), Bool.not_true, Bool.false_and]

/-- The bit a shift right by `n + 2` drops last is the lowest bit of the operand shifted by `n + 1`. -/
theorem shr_last_bit {w : Nat} (hw : 1 ≤ w) (x : BitVec w) (n : Nat) :
    (if n + 1 + 1 ≤ w then x.getLsbD (n + 1 + 1 - 1) else false) =
      if 1 ≤ w then (x >>> (n + 1)).getLsbD (1 - 1) else false := by
  rw [if_pos hw, BitVec.getLsbD_ushiftRight]
  by_cases h : n + 1 + 1 ≤ w
  · rw [if_pos h]
    rfl
  · rw [if_neg h, BitVec.getLsbD_of_ge _ _ (by omega)]

theorem aluShl_succ_eq {w : Nat} (hw : 1 ≤ w) (x : BitVec w) (n : Nat) (f : Flags) (p : Bool) :
    (aluShl x (n + 1) f).result = (aluShl (aluShl x n f).result 1 (aluShl x n f).flags).result ∧
    { (aluShl x (n + 1) f).flags with of := p } =
      { (aluShl (aluShl x n f).result 1 (aluShl x n f).flags).flags with of := p } := by
  cases n with
  | zero => exact ⟨rfl, rfl⟩
  | succ n =>
    have hr : x <<< (n + 1 + 1) = x <<< (n + 1) <<< 1 := BitVec.shiftLeft_add ..
    exact ⟨hr, ofShift_eq_but_of _ _ _ _ _ hr (shl_last_bit hw x n) rfl⟩

theorem aluShr_succ_eq {w : Nat} (hw : 1 ≤ w) (x : BitVec w) (n : Nat) (f : Flags) (p : Bool) :
    (aluShr x (n + 1) f).result = (aluShr (aluShr x n f).result 1 (aluShr x n f).flags).result ∧
    { (aluShr x (n + 1) f).flags with of := p } =
      { (aluShr (aluShr x n f).result 1 (aluShr x n f).flags).flags with of := p } := by
  cases n with
  | zero => exact ⟨rfl, rfl⟩
  | succ n =>
    have hr : x >>> (n + 1 + 1) = x >>> (n + 1) >>> 1 := BitVec.shiftRight_add ..
    exact ⟨hr, ofShift_eq_but_of _ _ _ _ _ hr (shr_last_bit hw x n) rfl⟩

/-- Settles O51: `aluShl_succ_eq` and `aluShr_succ_eq`, which hold at every width above 0. -/
theorem shiftByCountIsRepeatedShiftByOne : Obligations.ShiftByCountIsRepeatedShiftByOne := by
  intro w x n f hw
  obtain ⟨hl, hlf⟩ := aluShl_succ_eq (by omega) x n f f.of
  obtain ⟨hr, hrf⟩ := aluShr_succ_eq (by omega) x n f f.of
  exact ⟨hl, hr, hlf, hrf⟩

end Sys2Proof.Machine

/-! ## What every instruction leaves alone (10_state.md, 20_memory.md section 6, 60_exceptions.md section 2) -/

namespace Sys2Proof.Machine

/-! ### No instruction reads ENTRY (R24)

An instruction commutes with a change of ENTRY, because every part of it does. -/

/-- The state with another value of ENTRY. -/
def State.withEntry (s : State) (e : Word) : State := { s with entry := e }

/-- The outcome with another value of ENTRY in its next state. -/
def StepOutcome.withEntry (e : Word) : StepOutcome → StepOutcome
  | .next t => .next (t.withEntry e)
  | .fault f => .fault f
  | .refused r => .refused r

theorem State.attempt_withEntry {α : Type} {s : State} {e : Word} {x : Except FaultRecord α} {k k' : α → StepOutcome}
    (h : ∀ a, k' a = StepOutcome.withEntry e (k a)) :
    (s.withEntry e).attempt x k' = StepOutcome.withEntry e (s.attempt x k) := by
  cases x with
  | ok a => exact h a
  | error f => rfl

theorem State.writeLoc8_withEntry (s : State) (e : Word) (l : Loc8) (v : Byte) :
    (s.withEntry e).writeLoc8 l v = (s.writeLoc8 l v).map (·.withEntry e) := by
  rcases s.locBad8_cases l with h | ⟨x, h⟩
  · rw [writeLoc8_ok h, writeLoc8_ok (s := s.withEntry e) h]
    cases l <;> rfl
  · rw [writeLoc8_error h, writeLoc8_error (s := s.withEntry e) h]
    rfl

theorem State.writeLoc16_withEntry (s : State) (e : Word) (l : Loc16) (v : Word) :
    (s.withEntry e).writeLoc16 l v = (s.writeLoc16 l v).map (·.withEntry e) := by
  rcases s.locBad16_cases l with h | ⟨x, h⟩
  · rw [writeLoc16_ok h, writeLoc16_ok (s := s.withEntry e) h]
    cases l <;> rfl
  · rw [writeLoc16_error h, writeLoc16_error (s := s.withEntry e) h]
    rfl

/-- Everything DIV at W = 8 can answer, read off the registers: DivideError, or a value in each half of AX. -/
theorem divBy8_cases (x : Byte) (s : State) :
    (∀ u : State, u.regs = s.regs → divBy8 x u = .error u.divideFault) ∨
    ∃ q rem, ∀ u : State, u.regs = s.regs → divBy8 x u = .ok ((u.setReg8 .al q).setReg8 .ah rem) := by
  have hax {u : State} (hu : u.regs = s.regs) : u.reg16 .ax = s.reg16 .ax := congrArg (Regs.get · .ax) hu
  have hah {u : State} (hu : u.regs = s.regs) : u.reg8 .ah = s.reg8 .ah := congrArg hiByte (hax hu)
  rcases Nat.lt_or_ge (s.reg8 .ah).toNat x.toNat with h | h
  · refine .inr ⟨BitVec.ofNat 8 ((s.reg16 .ax).toNat / x.toNat), BitVec.ofNat 8 ((s.reg16 .ax).toNat % x.toNat),
      fun u hu => ?_⟩
    rw [divBy8_of_upper_lt (hah hu ▸ h), hax hu]
  · exact .inl fun u hu => divBy8_of_le_upper (hah hu ▸ h)

/-- Everything DIV at W = 16 can answer, read off the registers: DivideError, or a value in AX and one in DX. -/
theorem divBy16_cases (x : Word) (s : State) :
    (∀ u : State, u.regs = s.regs → divBy16 x u = .error u.divideFault) ∨
    ∃ q rem, ∀ u : State, u.regs = s.regs → divBy16 x u = .ok ((u.setReg16 .ax q).setReg16 .dx rem) := by
  have hreg {u : State} (hu : u.regs = s.regs) (q : Reg16) : u.reg16 q = s.reg16 q := congrArg (Regs.get · q) hu
  rcases Nat.lt_or_ge (s.reg16 .dx).toNat x.toNat with h | h
  · refine .inr ⟨BitVec.ofNat 16 (((s.reg16 .dx).toNat * 65536 + (s.reg16 .ax).toNat) / x.toNat),
      BitVec.ofNat 16 (((s.reg16 .dx).toNat * 65536 + (s.reg16 .ax).toNat) % x.toNat), fun u hu => ?_⟩
    rw [divBy16_of_upper_lt (hreg hu .dx ▸ h), hreg hu, hreg hu]
  · exact .inl fun u hu => divBy16_of_le_upper (hreg hu .dx ▸ h)

theorem divBy8_withEntry (x : Byte) (s : State) (e : Word) :
    divBy8 x (s.withEntry e) = (divBy8 x s).map (·.withEntry e) := by
  rcases divBy8_cases x s with h | ⟨q, rem, h⟩
  · rw [h s rfl, h (s.withEntry e) rfl]
    rfl
  · rw [h s rfl, h (s.withEntry e) rfl]
    rfl

theorem divBy16_withEntry (x : Word) (s : State) (e : Word) :
    divBy16 x (s.withEntry e) = (divBy16 x s).map (·.withEntry e) := by
  rcases divBy16_cases x s with h | ⟨q, rem, h⟩
  · rw [h s rfl, h (s.withEntry e) rfl]
    rfl
  · rw [h s rfl, h (s.withEntry e) rfl]
    rfl

theorem twoOp8_withEntry (alu : Byte → Byte → Flags → AluOut 8) (dst : Loc8) (src : Operand8) (len : Nat) (s : State)
    (e : Word) : twoOp8 alu dst src len (s.withEntry e) = StepOutcome.withEntry e (twoOp8 alu dst src len s) := by
  refine State.attempt_withEntry fun a => State.attempt_withEntry fun b => ?_
  rw [State.writeLoc8_withEntry, State.attempt_map]
  exact State.attempt_withEntry fun t => rfl

theorem twoOp16_withEntry (alu : Word → Word → Flags → AluOut 16) (dst : Loc16) (src : Operand16) (len : Nat)
    (s : State) (e : Word) :
    twoOp16 alu dst src len (s.withEntry e) = StepOutcome.withEntry e (twoOp16 alu dst src len s) := by
  refine State.attempt_withEntry fun a => State.attempt_withEntry fun b => ?_
  rw [State.writeLoc16_withEntry, State.attempt_map]
  exact State.attempt_withEntry fun t => rfl

theorem move8_withEntry (dst : Loc8) (src : Operand8) (len : Nat) (s : State) (e : Word) :
    move8 dst src len (s.withEntry e) = StepOutcome.withEntry e (move8 dst src len s) := by
  refine State.attempt_withEntry fun v => ?_
  rw [State.writeLoc8_withEntry, State.attempt_map]
  exact State.attempt_withEntry fun t => rfl

theorem move16_withEntry (dst : Loc16) (src : Operand16) (len : Nat) (s : State) (e : Word) :
    move16 dst src len (s.withEntry e) = StepOutcome.withEntry e (move16 dst src len s) := by
  refine State.attempt_withEntry fun v => ?_
  rw [State.writeLoc16_withEntry, State.attempt_map]
  exact State.attempt_withEntry fun t => rfl

theorem compare8_withEntry (dst : Loc8) (src : Operand8) (len : Nat) (s : State) (e : Word) :
    compare8 dst src len (s.withEntry e) = StepOutcome.withEntry e (compare8 dst src len s) :=
  State.attempt_withEntry fun _ => State.attempt_withEntry fun _ => rfl

theorem compare16_withEntry (dst : Loc16) (src : Operand16) (len : Nat) (s : State) (e : Word) :
    compare16 dst src len (s.withEntry e) = StepOutcome.withEntry e (compare16 dst src len s) :=
  State.attempt_withEntry fun _ => State.attempt_withEntry fun _ => rfl

theorem jumpIf_withEntry (taken : Bool) (rel : Byte) (s : State) (e : Word) :
    jumpIf taken rel (s.withEntry e) = StepOutcome.withEntry e (jumpIf taken rel s) := by
  cases taken <;> rfl

/-- Executing with another ENTRY gives the same outcome with that ENTRY. -/
theorem exec_withEntry (i : Instr) (s : State) (e : Word) :
    exec i (s.withEntry e) = StepOutcome.withEntry e (exec i s) := by
  refine View.forall_instr (P := fun i => exec i (s.withEntry e) = StepOutcome.withEntry e (exec i s)) (fun v => ?_) i
  cases v with
  | two8 op f =>
    cases op <;> simp only [View.instr, exec_two8_mov, exec_two8_add, exec_two8_adc, exec_two8_sub, exec_two8_sbb,
      exec_two8_and, exec_two8_or, exec_two8_xor, exec_two8_cmp]
    case mov => exact move8_withEntry ..
    case cmp => exact compare8_withEntry ..
    all_goals exact twoOp8_withEntry ..
  | two16 op f =>
    cases op <;> simp only [View.instr, exec_two16_mov, exec_two16_add, exec_two16_adc, exec_two16_sub, exec_two16_sbb,
      exec_two16_and, exec_two16_or, exec_two16_xor, exec_two16_cmp]
    case mov => exact move16_withEntry ..
    case cmp => exact compare16_withEntry ..
    all_goals exact twoOp16_withEntry ..
  | load8 d a => exact move8_withEntry ..
  | load16 d a => exact move16_withEntry ..
  | store8 a r => exact move8_withEntry (.direct a) (.loc (.reg r)) 3 s e
  | store16 a r => exact move16_withEntry (.direct a) (.loc (.reg r)) 3 s e
  | unary8 op r =>
    cases op
    case div =>
      have hdiv := divBy8_withEntry (s.reg8 r) s e
      refine (congrArg (fun x => (s.withEntry e).attempt x fun t => .next (t.complete 2)) hdiv).trans ?_
      rw [State.attempt_map]
      exact State.attempt_withEntry fun t => rfl
    all_goals rfl
  | unary16 op r =>
    cases op
    case div =>
      have hdiv := divBy16_withEntry (s.reg16 r) s e
      refine (congrArg (fun x => (s.withEntry e).attempt x fun t => .next (t.complete 2)) hdiv).trans ?_
      rw [State.attempt_map]
      exact State.attempt_withEntry fun t => rfl
    all_goals rfl
  | shift8 op r c => cases op <;> cases c <;> rfl
  | shift16 op r c => cases op <;> cases c <;> rfl
  | jump op rel =>
    cases op
    case loop => exact jumpIf_withEntry _ rel (s.setReg16 .cx (s.reg16 .cx - 1)) e
    case jmp => exact jumpIf_withEntry true rel s e
    all_goals exact jumpIf_withEntry _ rel s e
  | hlt => rfl

/-- Settles O22: a raised fault and a completed instruction both keep ENTRY and the parameters, and `exec_withEntry`. -/
theorem entryAndParametersAreOutOfReach : Obligations.EntryAndParametersAreOutOfReach := by
  refine ⟨fun i s t h => ?_, fun i s t e h => ?_⟩
  · rcases exec_next_cases h with ⟨f, rfl⟩ | completed
    · exact ⟨rfl, rfl⟩
    · exact ⟨completed.entry, completed.config⟩
  · exact (exec_withEntry i s e).trans (congrArg (StepOutcome.withEntry e) h)

/-! ### The effect of an instruction that completes -/

/-- The address after a completed instruction: a taken jump's target, else the address after its bytes (R17, R170). -/
def View.ipAfter (s : State) : View → Word
  | .jump op rel => if takesBranch s op then targetOf s.ip rel else s.ipAfter 2
  | v => s.ipAfter v.instr.length

/-- The cells outside those the instruction stores to (R48). -/
def View.LeavesCell (v : View) (s : State) (x : Nat) : Prop :=
  ∀ a n, v.storeRange s = some (a, n) → x < a ∨ a + n ≤ x

/-- `u` is `s` with values stored only where the instruction may store: in the registers R14 names and in the cells of
its memory destination. -/
structure View.Stores (v : View) (s u : State) : Prop where
  word : ∀ q, v.writesWord q = false → u.reg16 q = s.reg16 q
  byte : ∀ q, v.writesByte q = false → u.reg8 q = s.reg8 q
  mem : ∀ x, v.LeavesCell s x → u.byteAt x = s.byteAt x
  ip : u.ip = s.ip

/-- What an instruction that completes leaves alone (R12, R14, R20, R48), and where IP is after it (R17). -/
structure View.Effect (v : View) (s t : State) : Prop where
  word : ∀ q, v.writesWord q = false → t.reg16 q = s.reg16 q
  byte : ∀ q, v.writesByte q = false → t.reg8 q = s.reg8 q
  mem : ∀ x, v.LeavesCell s x → t.byteAt x = s.byteAt x
  flags : Flags.agreeOutside (v.writesFlags s) t.flags s.flags
  ip : t.ip = v.ipAfter s
  run : t.run ≠ .faulted

theorem View.Stores.refl (v : View) (s : State) : v.Stores s s := ⟨fun _ _ => rfl, fun _ _ => rfl, fun _ _ => rfl, rfl⟩

/-- Writing a byte register the instruction names, whose word it names too. -/
theorem View.Stores.setReg8 {v : View} {s u : State} (h : v.Stores s u) {r : Reg8} (x : Byte)
    (hword : v.writesWord r.parent = true) (hbyte : v.writesByte r = true) : v.Stores s (u.setReg8 r x) where
  word q hq := (u.reg16_setReg8_ne r q x (by rintro rfl; simp_all)).trans (h.word q hq)
  byte q hq := by
    rw [State.reg8_setReg8, if_neg (by rintro rfl; simp_all), h.byte q hq]
  mem := h.mem
  ip := h.ip

/-- Writing a word register the instruction names, both halves of which it names too. -/
theorem View.Stores.setReg16 {v : View} {s u : State} (h : v.Stores s u) {r : Reg16} (x : Word)
    (hword : v.writesWord r = true) (hbyte : ∀ q : Reg8, q.parent = r → v.writesByte q = true) :
    v.Stores s (u.setReg16 r x) where
  word q hq := by
    rw [State.reg16_setReg16, if_neg (by rintro rfl; simp_all), h.word q hq]
  byte q hq := by
    rw [State.reg8_setReg16, if_neg (fun hp => by simp_all), h.byte q hq]
  mem := h.mem
  ip := h.ip

/-- Writing the byte of the memory destination. -/
theorem View.Stores.setByte {v : View} {s : State} {a : Nat} (x : Byte) (h : v.storeRange s = some (a, 1)) :
    v.Stores s (s.setByte a x) where
  word _ _ := rfl
  byte _ _ := rfl
  mem y hy := s.byteAt_setByte_ne a y x (by have := hy a 1 h; omega)
  ip := rfl

/-- Writing the two bytes of the memory destination. -/
theorem View.Stores.setWord {v : View} {s : State} {a : Nat} (x y : Byte) (h : v.storeRange s = some (a, 2)) :
    v.Stores s ((s.setByte a x).setByte (a + 1) y) where
  word _ _ := rfl
  byte _ _ := rfl
  mem z hz := by
    have hout := hz a 2 h
    rw [State.byteAt_setByte_ne _ _ _ _ (by omega), State.byteAt_setByte_ne _ _ _ _ (by omega)]
  ip := rfl

/-- The end of an instruction that is no jump: the flags it writes, and IP past its bytes. -/
theorem View.Stores.complete {v : View} {s u : State} (h : v.Stores s u) {f : Flags} {n : Nat}
    (hf : Flags.agreeOutside (v.writesFlags s) f s.flags) (hip : s.ipAfter n = v.ipAfter s) :
    v.Effect s ((u.setFlags f).complete n) where
  word := h.word
  byte := h.byte
  mem := h.mem
  flags := hf
  ip := by rw [State.complete_ip, State.nextIp_eq_ipAfter, ← hip, State.setFlags_ipAfter, State.ipAfter, h.ip]; rfl
  run := by simp

/-! ### The flags each operation writes (R20) -/

theorem Flags.agreeOutside_all (f g : Flags) : Flags.agreeOutside .all f g :=
  ⟨nofun, nofun, nofun, nofun, nofun, nofun⟩

theorem Flags.agreeOutside_refl (mask f : Flags) : Flags.agreeOutside mask f f :=
  ⟨fun _ => rfl, fun _ => rfl, fun _ => rfl, fun _ => rfl, fun _ => rfl, fun _ => rfl⟩

theorem ofLogic_agreeOutside {w : Nat} (f : Flags) (r : BitVec w) :
    Flags.agreeOutside { Flags.all with af := false } (f.ofLogic r) f :=
  ⟨nofun, nofun, nofun, nofun, fun _ => rfl, nofun⟩

theorem ofSumKeepCF_agreeOutside {w : Nat} (f : Flags) (o : Sum w) :
    Flags.agreeOutside { Flags.all with cf := false } (f.ofSumKeepCF o) f :=
  ⟨fun _ => rfl, nofun, nofun, nofun, nofun, nofun⟩

theorem ofMul_agreeOutside {w : Nat} (f : Flags) (upper : BitVec w) :
    Flags.agreeOutside { Flags.clear with cf := true, of := true } (f.ofMul upper) f :=
  ⟨nofun, fun _ => rfl, fun _ => rfl, nofun, fun _ => rfl, fun _ => rfl⟩

theorem ofShift_agreeOutside {w n : Nat} (hn : n ≠ 0) (f : Flags) (cf o : Bool) (r : BitVec w) :
    Flags.agreeOutside (shiftFlags n) (f.ofShift n cf o r) f := by
  rw [shiftFlags, if_neg hn]
  by_cases h1 : n = 1
  · rw [if_pos h1]
    exact ⟨nofun, nofun, nofun, nofun, fun _ => rfl, nofun⟩
  · rw [if_neg h1]
    exact ⟨nofun, nofun, nofun, fun _ => if_neg h1, fun _ => rfl, nofun⟩

theorem aluShl_agreeOutside {w : Nat} (x : BitVec w) (n : Nat) (f : Flags) :
    Flags.agreeOutside (shiftFlags n) (aluShl x n f).flags f := by
  unfold aluShl
  split
  · exact Flags.agreeOutside_refl ..
  · exact ofShift_agreeOutside ‹_› ..

theorem aluShr_agreeOutside {w : Nat} (x : BitVec w) (n : Nat) (f : Flags) :
    Flags.agreeOutside (shiftFlags n) (aluShr x n f).flags f := by
  unfold aluShr
  split
  · exact Flags.agreeOutside_refl ..
  · exact ofShift_agreeOutside ‹_› ..

/-! ### The effect of each shape -/

theorem stores_putLoc8 {op : TwoOp} (hop : op ≠ .cmp) (f : Form8) (s : State) (x : Byte) :
    (View.two8 op f).Stores s (s.putLoc8 (dst8 f) x) := by
  cases f with
  | regReg d | regMem d | regImm d =>
    exact (View.Stores.refl _ s).setReg8 x (by simp [View.writesWord, dst8, hop]) (by simp [View.writesByte, dst8, hop])
  | memReg b r => exact .setByte x (if_neg hop)

theorem stores_putLoc16 {op : TwoOp} (hop : op ≠ .cmp) (f : Form16) (s : State) (x : Word) :
    (View.two16 op f).Stores s (s.putLoc16 (dst16 f) x) := by
  cases f with
  | regReg d | regMem d | regImm d =>
    exact (View.Stores.refl _ s).setReg16 x (by simp [View.writesWord, dst16, hop])
      (by simp +contextual [View.writesByte, View.writesWord, dst16, hop])
  | memReg b r => exact .setWord _ _ (if_neg hop)

theorem ipAfter_two8 (op : TwoOp) (f : Form8) (s : State) :
    s.ipAfter (formLength8 f) = (View.two8 op f).ipAfter s :=
  congrArg s.ipAfter (Instr.length_two8 op f).symm

theorem ipAfter_two16 (op : TwoOp) (f : Form16) (s : State) :
    s.ipAfter (formLength16 f) = (View.two16 op f).ipAfter s :=
  congrArg s.ipAfter (Instr.length_two16 op f).symm

theorem State.eq_setFlags {u : State} {f : Flags} (h : u.flags = f) : u = u.setFlags f := by
  subst h
  rfl

theorem two8_effect {op : TwoOp} {f : Form8} {s t : State} (hb : (View.two8 op f).badCell s = none)
    (h : exec (.two8 op f) s = .next t) : (View.two8 op f).Effect s t := by
  obtain ⟨hd, hs⟩ := View.badCell_two8_none hb
  have alu (g : Byte → Byte → Flags → AluOut 8) (hop : op ≠ .cmp)
      (hg : ∀ a b, Flags.agreeOutside (twoOpFlags op) (g a b s.flags).flags s.flags)
      (h : twoOp8 g (dst8 f) (src8 f) (formLength8 f) s = .next t) : (View.two8 op f).Effect s t := by
    rw [twoOp8_ok g _ hd hs] at h
    exact next_inj h ▸ (stores_putLoc8 hop f s _).complete (hg ..) (ipAfter_two8 ..)
  cases op
  case mov =>
    rw [exec_two8_mov, move8_ok _ hd hs, State.eq_setFlags (s.putLoc8_flags _ _)] at h
    exact next_inj h ▸ (stores_putLoc8 (by decide) f s _).complete (Flags.agreeOutside_refl ..) (ipAfter_two8 ..)
  case cmp =>
    rw [exec_two8_cmp, compare8_ok _ hd hs] at h
    exact next_inj h ▸ (View.Stores.refl ..).complete (Flags.agreeOutside_all ..) (ipAfter_two8 ..)
  case add => exact alu aluAdd (by decide) (fun _ _ => Flags.agreeOutside_all ..) (exec_two8_add f s ▸ h)
  case adc => exact alu aluAdc (by decide) (fun _ _ => Flags.agreeOutside_all ..) (exec_two8_adc f s ▸ h)
  case sub => exact alu aluSub (by decide) (fun _ _ => Flags.agreeOutside_all ..) (exec_two8_sub f s ▸ h)
  case sbb => exact alu aluSbb (by decide) (fun _ _ => Flags.agreeOutside_all ..) (exec_two8_sbb f s ▸ h)
  case and => exact alu aluAnd (by decide) (fun _ _ => ofLogic_agreeOutside ..) (exec_two8_and f s ▸ h)
  case or => exact alu aluOr (by decide) (fun _ _ => ofLogic_agreeOutside ..) (exec_two8_or f s ▸ h)
  case xor => exact alu aluXor (by decide) (fun _ _ => ofLogic_agreeOutside ..) (exec_two8_xor f s ▸ h)

theorem two16_effect {op : TwoOp} {f : Form16} {s t : State} (hb : (View.two16 op f).badCell s = none)
    (h : exec (.two16 op f) s = .next t) : (View.two16 op f).Effect s t := by
  obtain ⟨hd, hs⟩ := View.badCell_two16_none hb
  have alu (g : Word → Word → Flags → AluOut 16) (hop : op ≠ .cmp)
      (hg : ∀ a b, Flags.agreeOutside (twoOpFlags op) (g a b s.flags).flags s.flags)
      (h : twoOp16 g (dst16 f) (src16 f) (formLength16 f) s = .next t) : (View.two16 op f).Effect s t := by
    rw [twoOp16_ok g _ hd hs] at h
    exact next_inj h ▸ (stores_putLoc16 hop f s _).complete (hg ..) (ipAfter_two16 ..)
  cases op
  case mov =>
    rw [exec_two16_mov, move16_ok _ hd hs, State.eq_setFlags (s.putLoc16_flags _ _)] at h
    exact next_inj h ▸ (stores_putLoc16 (by decide) f s _).complete (Flags.agreeOutside_refl ..) (ipAfter_two16 ..)
  case cmp =>
    rw [exec_two16_cmp, compare16_ok _ hd hs] at h
    exact next_inj h ▸ (View.Stores.refl ..).complete (Flags.agreeOutside_all ..) (ipAfter_two16 ..)
  case add => exact alu aluAdd (by decide) (fun _ _ => Flags.agreeOutside_all ..) (exec_two16_add f s ▸ h)
  case adc => exact alu aluAdc (by decide) (fun _ _ => Flags.agreeOutside_all ..) (exec_two16_adc f s ▸ h)
  case sub => exact alu aluSub (by decide) (fun _ _ => Flags.agreeOutside_all ..) (exec_two16_sub f s ▸ h)
  case sbb => exact alu aluSbb (by decide) (fun _ _ => Flags.agreeOutside_all ..) (exec_two16_sbb f s ▸ h)
  case and => exact alu aluAnd (by decide) (fun _ _ => ofLogic_agreeOutside ..) (exec_two16_and f s ▸ h)
  case or => exact alu aluOr (by decide) (fun _ _ => ofLogic_agreeOutside ..) (exec_two16_or f s ▸ h)
  case xor => exact alu aluXor (by decide) (fun _ _ => ofLogic_agreeOutside ..) (exec_two16_xor f s ▸ h)

/-- MOV with a direct address, byte-wide: whatever its one memory operand, it stores the source and no flag. -/
theorem move8_effect {v : View} {dst : Loc8} {src : Operand8} {s t : State} (hd : s.locBad8 dst = none)
    (hs : s.opBad8 src = none) (hst : v.Stores s (s.putLoc8 dst (s.opValue8 src))) (hip : s.ipAfter 3 = v.ipAfter s)
    (h : move8 dst src 3 s = .next t) : v.Effect s t := by
  rw [move8_ok 3 hd hs, State.eq_setFlags (s.putLoc8_flags _ _)] at h
  exact next_inj h ▸ hst.complete (Flags.agreeOutside_refl ..) hip

theorem move16_effect {v : View} {dst : Loc16} {src : Operand16} {s t : State} (hd : s.locBad16 dst = none)
    (hs : s.opBad16 src = none) (hst : v.Stores s (s.putLoc16 dst (s.opValue16 src))) (hip : s.ipAfter 3 = v.ipAfter s)
    (h : move16 dst src 3 s = .next t) : v.Effect s t := by
  rw [move16_ok 3 hd hs, State.eq_setFlags (s.putLoc16_flags _ _)] at h
  exact next_inj h ▸ hst.complete (Flags.agreeOutside_refl ..) hip

/-- A one-register operation writes its register, except MUL and DIV, which are no such operation. -/
theorem unaryOp8_effect {op : UnaryOp} {g : Byte → Flags → AluOut 8} {r : Reg8} {s t : State} (hm : op ≠ .mul)
    (hd : op ≠ .div) (hg : ∀ x, Flags.agreeOutside (unaryFlags op) (g x s.flags).flags s.flags)
    (h : unaryOp8 g r s = .next t) : (View.unary8 op r).Effect s t := by
  have hst : (View.unary8 op r).Stores s (s.setReg8 r (g (s.reg8 r) s.flags).result) :=
    (View.Stores.refl ..).setReg8 _ (by simp [View.writesWord, hm, hd]) (by simp [View.writesByte, hm, hd])
  exact next_inj h ▸ hst.complete (hg _) (congrArg s.ipAfter (Instr.length_unary8 op r).symm)

theorem unaryOp16_effect {op : UnaryOp} {g : Word → Flags → AluOut 16} {r : Reg16} {s t : State} (hm : op ≠ .mul)
    (hd : op ≠ .div) (hg : ∀ x, Flags.agreeOutside (unaryFlags op) (g x s.flags).flags s.flags)
    (h : unaryOp16 g r s = .next t) : (View.unary16 op r).Effect s t := by
  have hst : (View.unary16 op r).Stores s (s.setReg16 r (g (s.reg16 r) s.flags).result) :=
    (View.Stores.refl ..).setReg16 _ (by simp [View.writesWord, hm, hd])
      (by simp +contextual [View.writesByte, View.writesWord, hm, hd])
  exact next_inj h ▸ hst.complete (hg _) (congrArg s.ipAfter (Instr.length_unary16 op r).symm)

theorem shiftOp8_effect {op : ShiftOp} {g : Byte → Nat → Flags → AluOut 8} {r : Reg8} {c : ShiftCount} {s t : State}
    (hg : ∀ x n, Flags.agreeOutside (shiftFlags n) (g x n s.flags).flags s.flags)
    (h : shiftOp8 g r c (shiftLength c) s = .next t) : (View.shift8 op r c).Effect s t := by
  have hst : (View.shift8 op r c).Stores s (s.setReg8 r (g (s.reg8 r) (s.shiftCount c) s.flags).result) :=
    (View.Stores.refl ..).setReg8 _ (by simp [View.writesWord]) (by simp [View.writesByte])
  exact next_inj h ▸ hst.complete (hg ..) (congrArg s.ipAfter (Instr.length_shift8 op r c).symm)

theorem shiftOp16_effect {op : ShiftOp} {g : Word → Nat → Flags → AluOut 16} {r : Reg16} {c : ShiftCount}
    {s t : State} (hg : ∀ x n, Flags.agreeOutside (shiftFlags n) (g x n s.flags).flags s.flags)
    (h : shiftOp16 g r c (shiftLength c) s = .next t) : (View.shift16 op r c).Effect s t := by
  have hst : (View.shift16 op r c).Stores s (s.setReg16 r (g (s.reg16 r) (s.shiftCount c) s.flags).result) :=
    (View.Stores.refl ..).setReg16 _ (by simp [View.writesWord])
      (by simp +contextual [View.writesByte, View.writesWord])
  exact next_inj h ▸ hst.complete (hg ..) (congrArg s.ipAfter (Instr.length_shift16 op r c).symm)

/-- The word forms of MUL and DIV store in AX and DX. -/
theorem stores_ax_dx {op : UnaryOp} (hop : op = .mul ∨ op = .div) (r : Reg16) (s : State) (x y : Word) :
    (View.unary16 op r).Stores s ((s.setReg16 .ax x).setReg16 .dx y) :=
  ((View.Stores.refl ..).setReg16 x (by simp [View.writesWord, hop])
    (by simp +contextual [View.writesByte, View.writesWord, hop])).setReg16 y (by simp [View.writesWord, hop])
    (by simp +contextual [View.writesByte, View.writesWord, hop])

theorem mul8_effect {r : Reg8} {s t : State} (h : exec (.unary8 .mul r) s = .next t) :
    (View.unary8 .mul r).Effect s t := by
  rw [exec_unary8_mul] at h
  exact next_inj h ▸ ((View.Stores.refl ..).setReg16 _ rfl (by simp +contextual [View.writesByte])).complete
    (ofMul_agreeOutside ..) rfl

theorem mul16_effect {r : Reg16} {s t : State} (h : exec (.unary16 .mul r) s = .next t) :
    (View.unary16 .mul r).Effect s t := by
  rw [exec_unary16_mul] at h
  exact next_inj h ▸ (stores_ax_dx (.inl rfl) r s _ _).complete (ofMul_agreeOutside ..) rfl

/-- DIV raises DivideError, or writes its two registers and no flag. -/
theorem div8_cases {r : Reg8} {s t : State} (h : exec (.unary8 .div r) s = .next t) :
    t = s.raise s.divideFault ∨ (View.unary8 .div r).Effect s t := by
  rw [exec_unary8_div] at h
  rcases divBy8_cases (s.reg8 r) s with hdiv | ⟨q, rem, hdiv⟩ <;> rw [hdiv s rfl] at h
  · exact .inl (next_inj h).symm
  · have hst := ((View.Stores.refl (.unary8 .div r) s).setReg8 (r := .al) q rfl rfl).setReg8 (r := .ah) rem rfl rfl
    exact .inr (next_inj h ▸ hst.complete (f := s.flags) (Flags.agreeOutside_refl ..) rfl)

theorem div16_cases {r : Reg16} {s t : State} (h : exec (.unary16 .div r) s = .next t) :
    t = s.raise s.divideFault ∨ (View.unary16 .div r).Effect s t := by
  rw [exec_unary16_div] at h
  rcases divBy16_cases (s.reg16 r) s with hdiv | ⟨q, rem, hdiv⟩ <;> rw [hdiv s rfl] at h
  · exact .inl (next_inj h).symm
  · have hst := stores_ax_dx (.inr rfl) r s q rem
    exact .inr (next_inj h ▸ hst.complete (f := s.flags) (Flags.agreeOutside_refl ..) rfl)

/-! ### Jumps -/

/-- A jump that stores nothing but registers it names: IP is the target or the address after its two bytes. -/
theorem View.Stores.jumpIf {op : JumpOp} {rel : Byte} {s u t : State} {taken : Bool}
    (hst : (View.jump op rel).Stores s u) (hf : u.flags = s.flags) (htaken : taken = takesBranch s op)
    (h : jumpIf taken rel u = .next t) : (View.jump op rel).Effect s t := by
  rw [jumpIf_eq_next] at h
  subst htaken
  refine next_inj h ▸ ⟨hst.word, hst.byte, hst.mem, hf ▸ Flags.agreeOutside_refl .., ?_, by simp⟩
  simp only [State.ipAfter, hst.ip]
  rfl

theorem jump_effect {op : JumpOp} {rel : Byte} {s t : State} (h : exec (.jump op rel) s = .next t) :
    (View.jump op rel).Effect s t := by
  have plain {taken : Bool} (htaken : taken = takesBranch s op) (h : jumpIf taken rel s = .next t) :
      (View.jump op rel).Effect s t := (View.Stores.refl ..).jumpIf rfl htaken h
  cases op
  case loop =>
    have hcx : decide (s.reg16 .cx - 1 ≠ 0) = takesBranch s .loop := decide_eq_decide.mpr (by bv_omega)
    exact ((View.Stores.refl ..).setReg16 _ rfl (by simp [View.writesByte, View.writesWord])).jumpIf rfl hcx h
  case ja => exact plain (Bool.not_or ..).symm h
  case jge => exact plain (condJge_eq_not_condJl s.flags) h
  case jg => exact plain (condJg_eq_not_condJle s.flags) h
  all_goals exact plain rfl h

/-! ### Every instruction (R209) -/

/-- Whether the instruction is DIV, at either width. -/
def View.IsDiv (v : View) : Prop := (∃ r, v = .unary8 .div r) ∨ ∃ r, v = .unary16 .div r

/-- Everything an instruction can do: AddressError at the first missing cell of its memory operand, DivideError for a
DIV, or its effect. -/
theorem View.exec_cases {v : View} {s t : State} (h : exec v.instr s = .next t) :
    (∃ x, v.badCell s = some x ∧ t = s.raise (outOfRange x)) ∨ (v.IsDiv ∧ t = s.raise s.divideFault) ∨
    v.Effect s t := by
  cases hb : v.badCell s with
  | some x => exact .inl ⟨x, rfl, (next_inj ((exec_badCell hb).symm.trans h)).symm⟩
  | none =>
    refine .inr ?_
    cases v with
    | two8 op f => exact .inr (two8_effect hb h)
    | two16 op f => exact .inr (two16_effect hb h)
    | load8 d a => exact .inr (move8_effect (dst := .reg d) (src := .loc (.direct a)) rfl hb
        ((View.Stores.refl ..).setReg8 _ (by simp [writesWord]) (by simp [writesByte])) rfl h)
    | load16 d a => exact .inr (move16_effect (dst := .reg d) (src := .loc (.direct a)) rfl hb
        ((View.Stores.refl ..).setReg16 _ (by simp [writesWord]) (by simp +contextual [writesByte, writesWord])) rfl h)
    | store8 a r =>
      exact .inr (move8_effect (dst := .direct a) (src := .loc (.reg r)) hb rfl (.setByte _ rfl) rfl h)
    | store16 a r =>
      exact .inr (move16_effect (dst := .direct a) (src := .loc (.reg r)) hb rfl (.setWord _ _ rfl) rfl h)
    | unary8 op r =>
      cases op
      case mul => exact .inr (mul8_effect h)
      case div => exact (div8_cases h).imp_left fun ht => ⟨.inl ⟨r, rfl⟩, ht⟩
      case inc => exact .inr (unaryOp8_effect (g := aluInc) nofun nofun (fun _ => ofSumKeepCF_agreeOutside ..) h)
      case dec => exact .inr (unaryOp8_effect (g := aluDec) nofun nofun (fun _ => ofSumKeepCF_agreeOutside ..) h)
      case not => exact .inr (unaryOp8_effect (g := aluNot) nofun nofun (fun _ => Flags.agreeOutside_refl ..) h)
      case neg => exact .inr (unaryOp8_effect (g := aluNeg) nofun nofun (fun _ => Flags.agreeOutside_all ..) h)
    | unary16 op r =>
      cases op
      case mul => exact .inr (mul16_effect h)
      case div => exact (div16_cases h).imp_left fun ht => ⟨.inr ⟨r, rfl⟩, ht⟩
      case inc => exact .inr (unaryOp16_effect (g := aluInc) nofun nofun (fun _ => ofSumKeepCF_agreeOutside ..) h)
      case dec => exact .inr (unaryOp16_effect (g := aluDec) nofun nofun (fun _ => ofSumKeepCF_agreeOutside ..) h)
      case not => exact .inr (unaryOp16_effect (g := aluNot) nofun nofun (fun _ => Flags.agreeOutside_refl ..) h)
      case neg => exact .inr (unaryOp16_effect (g := aluNeg) nofun nofun (fun _ => Flags.agreeOutside_all ..) h)
    | shift8 op r c =>
      cases op
      case shl => exact .inr (shiftOp8_effect (fun x n => aluShl_agreeOutside x n _) (exec_shift8_shl r c s ▸ h))
      case shr => exact .inr (shiftOp8_effect (fun x n => aluShr_agreeOutside x n _) (exec_shift8_shr r c s ▸ h))
    | shift16 op r c =>
      cases op
      case shl => exact .inr (shiftOp16_effect (fun x n => aluShl_agreeOutside x n _) (exec_shift16_shl r c s ▸ h))
      case shr => exact .inr (shiftOp16_effect (fun x n => aluShr_agreeOutside x n _) (exec_shift16_shr r c s ▸ h))
    | jump op rel => exact .inr (jump_effect h)
    | hlt =>
      refine .inr (next_inj h ▸
        ⟨fun _ _ => rfl, fun _ _ => rfl, fun _ _ => rfl, Flags.agreeOutside_refl .., ?_, by simp⟩)
      exact State.nextIp_eq_ipAfter s 1

/-- What an instruction does, by its shape: it raises a fault from the state before, or has its effect. -/
theorem exec_raise_or_effect {i : Instr} {s t : State} (h : exec i s = .next t) :
    (∃ f, t = s.raise f) ∨ i.view.Effect s t := by
  rcases View.exec_cases (v := i.view) ((View.instr_view i).symm ▸ h) with ⟨x, -, ht⟩ | ⟨-, ht⟩ | e
  · exact .inl ⟨_, ht⟩
  · exact .inl ⟨_, ht⟩
  · exact .inr e

/-- Settles O23: a fault keeps the registers, an instruction's effect changes those its shape names; one that completes
keeps FAULT. -/
theorem registersChangeOnlyWhereNamed : Obligations.RegistersChangeOnlyWhereNamed := by
  intro i s t h
  have hfault (hrun : t.run ≠ .faulted) : t.fault = s.fault := by
    rcases exec_next_cases h with ⟨f, rfl⟩ | completed
    · exact absurd rfl hrun
    · exact completed.fault
  rcases exec_raise_or_effect h with ⟨f, rfl⟩ | e
  · exact ⟨fun _ _ => rfl, fun _ _ => rfl, hfault⟩
  · exact ⟨e.word, e.byte, hfault⟩

/-- Settles O24: a fault keeps the flags, an instruction's effect changes those of its row. -/
theorem flagsChangeOnlyWhereTheTableSays : Obligations.FlagsChangeOnlyWhereTheTableSays := by
  intro i s t h
  rcases exec_raise_or_effect h with ⟨f, rfl⟩ | e
  · exact Flags.agreeOutside_refl ..
  · exact e.flags

/-- Settles O25: a fault keeps memory, an instruction's effect changes the cells it stores to. -/
theorem memoryChangesOnlyAtTheStoredBytes : Obligations.MemoryChangesOnlyAtTheStoredBytes := by
  intro i s t h
  have hmem (x : Nat) (hx : i.view.LeavesCell s x) : t.byteAt x = s.byteAt x := by
    rcases exec_raise_or_effect h with ⟨f, rfl⟩ | e
    · rfl
    · exact e.mem x hx
  refine ⟨fun hn x => hmem x fun a n ha => ?_, fun a n ha x hx => hmem x fun a' n' ha' => ?_⟩
  · cases hn.symm.trans ha
  · cases ha.symm.trans ha'
    exact hx

theorem View.ipAfter_of_not_jump {v : View} (hv : ∀ op rel, v ≠ .jump op rel) (s : State) :
    v.ipAfter s = s.ipAfter v.instr.length := by
  cases v
  case jump op rel => exact absurd rfl (hv op rel)
  all_goals rfl

theorem State.ipAfter_toNat (s : State) (n : Nat) : (s.ipAfter n).toNat = (s.ip.toNat + n) % 65536 :=
  BitVec.toNat_ofNat ..

/-- Settles O26: a fault keeps IP, an instruction's effect moves it as `View.ipAfter` says. -/
theorem ipAdvancesByTheLengthOrToTheTarget : Obligations.IpAdvancesByTheLengthOrToTheTarget := by
  intro i s t h
  rcases exec_raise_or_effect h with ⟨f, rfl⟩ | e
  · exact ⟨fun _ => rfl, fun hrun => absurd rfl hrun⟩
  · have hjump {op : JumpOp} {rel : Byte} (hi : i = .jump op rel) :
        t.ip = if takesBranch s op then targetOf s.ip rel else s.ipAfter 2 := by
      rw [e.ip, hi]
      exact congrArg (View.ipAfter s) (View.view_instr (.jump op rel))
    refine ⟨fun hrun => absurd hrun e.run, fun _ => ⟨fun op rel hi hb => ?_, fun op rel hi hb => ?_, fun hi => ?_⟩⟩
    · rw [hjump hi, hb, if_pos rfl]
    · rw [hjump hi, hb, if_neg Bool.false_ne_true, State.ipAfter_toNat]
    · have hv (op : JumpOp) (rel : Byte) : i.view ≠ .jump op rel := fun hv =>
        hi op rel ((View.instr_view i).symm.trans (congrArg View.instr hv))
      rw [e.ip, View.ipAfter_of_not_jump hv, View.instr_view, State.ipAfter_toNat]

/-- Settles O27: of the three things an instruction can do, its effect leaves RUN other than Faulted. -/
theorem onlyMemoryOperandsAndDivFault : Obligations.OnlyMemoryOperandsAndDivFault := by
  intro i s t h hrun
  rcases View.exec_cases (v := i.view) ((View.instr_view i).symm ▸ h) with ⟨x, hb, rfl⟩ | ⟨hdiv, rfl⟩ | e
  · obtain ⟨p, hp, -⟩ := Option.bind_eq_some_iff.mp hb
    exact .inl ⟨p, x, hp, hb, rfl⟩
  · have hi {v : View} (hv : i.view = v) : i = v.instr := (View.instr_view i).symm.trans (congrArg View.instr hv)
    refine .inr ⟨?_, rfl⟩
    rcases hdiv with ⟨r, hv⟩ | ⟨r, hv⟩
    · exact ⟨r, .inl (hi hv)⟩
    · exact ⟨.al, .inr ⟨r, hi hv⟩⟩
  · exact absurd hrun e.run

end Sys2Proof.Machine
